-- ==== Sys2Proof/Word.lean ====
section
/-! DEFINITION. The two bit-vector sizes of the block: the 16-bit host register word (rule R64, `REG_W` of
rule R8) and the 8-bit byte (rule R9). -/

namespace Sys2Proof

/-- A whole host register, 16 bits (rules R8, R64). Bit 0 is the least significant (rule R13). -/
abbrev Word := BitVec 16

/-- A byte, 8 bits (rule R9): the operand of a byte operation, `RXDATA`, `CRC`, `txsh`, `rxacc`. -/
abbrev Byte := BitVec 8

end Sys2Proof
end

