-- ==== Sys2Proof/Syntax.lean ====
section
/-! DEFINITION. The operations of the block (rule R91), the three command formats (rule R92), and the line
events and primitives they are made of (rules R15, R16). -/

namespace Sys2Proof

/-- The eight operations, one per row of the opcode map (rules R91, R94). A bit operand is a `Bool`, a byte
operand a `Byte`, taken as they stand (rule R93). -/
inductive Instr where
  /-- Reset pulse with presence detect (rule R123). -/
  | lreset
  /-- Write time slot for the bit `b` (rule R127). -/
  | wbit (b : Bool)
  /-- Read time slot (rule R130). -/
  | rbit
  /-- Send one byte, least-significant bit first (rule R151). -/
  | sendb (v : Byte)
  /-- Receive one byte, least-significant bit first (rule R155). -/
  | recvb
  /-- Clear the CRC register (rule R171). -/
  | crcclr
  /-- Feed one byte to the CRC, bitwise form (rule R172). -/
  | crcb (v : Byte)
  /-- Feed one byte to the CRC, table form (rule R173). -/
  | crct (v : Byte)
  deriving DecidableEq, Repr, Inhabited

/-- The three command formats (rule R92), by what the `arg` field holds. -/
inductive Format where
  /-- No operand: `arg` is zero. -/
  | n
  /-- Bit operand: `arg[7:1]` is zero, `arg[0]` is the bit. -/
  | b
  /-- Byte operand: all of `arg`. -/
  | y
  deriving DecidableEq, Repr

/-- The two fields of a command word (rule R90): `op` is bits 15:8 and `arg` bits 7:0. -/
structure Command where
  op  : Byte
  arg : Byte
  deriving DecidableEq, Repr

/-- The format each operation uses (rule R92, last column). -/
def Instr.format : Instr → Format
  | .lreset  => .n
  | .wbit _  => .b
  | .rbit    => .n
  | .sendb _ => .y
  | .recvb   => .n
  | .crcclr  => .n
  | .crcb _  => .y
  | .crct _  => .y

/-- One event of the trace (rule R16). In a trace the model makes, the time of a `wait` is positive. -/
inductive LineEvent where
  /-- The block began to pull the line low. -/
  | driveLow
  /-- The block stopped driving. -/
  | release
  /-- `t` nanoseconds passed. -/
  | wait (t : Nat)
  /-- The block sampled the line and saw the level `v`. -/
  | sample (v : Bool)
  deriving DecidableEq, Repr

/-- One indivisible action of the block (rule R15). -/
inductive Prim where
  /-- `DriveLow()`. -/
  | driveLow
  /-- `Release()`. -/
  | release
  /-- `Delay(t)`, `t` in nanoseconds. -/
  | delay (t : Nat)
  /-- `Sample()`. -/
  | sample
  deriving DecidableEq, Repr

/-- The five operations that run on the line, and so through the sequencer (rules R36, R98). -/
inductive LineOp where
  | lreset
  | wbit
  | rbit
  | sendb
  | recvb
  deriving DecidableEq, Repr

end Sys2Proof
end

