-- ==== Sys2Proof/Config.lean ====
section
/-! DEFINITION. The implementation parameters (rules R8 to R12): the two timing profiles and their eleven
delays, and the platform's choices. What the platform or the environment decides and the spec leaves open is
an opaque constant, of which nothing can be proved. -/

namespace Sys2Proof

/-- `PROFILE` (rules R8, R10). -/
inductive Profile where
  | standard
  | fast
  deriving DecidableEq, Repr, Inhabited

/-- The `TIMING` record (rule R11): eleven delays in nanoseconds, with the spec's field names. -/
structure Timing where
  /-- `T_RST_PRE`, the pre-delay of LRESET; 0 means none. -/
  rstPre : Nat
  /-- `T_RSTL`, the low time of LRESET. -/
  rstL : Nat
  /-- `T_PDS`, from the release of LRESET to its sample. -/
  pds : Nat
  /-- `T_RST_REC`, the recovery of LRESET. -/
  rstRec : Nat
  /-- `T_W1L`, the low time of a write-1 slot. -/
  w1L : Nat
  /-- `T_W1H`, the high time of a write-1 slot. -/
  w1H : Nat
  /-- `T_W0L`, the low time of a write-0 slot. -/
  w0L : Nat
  /-- `T_W0H`, the high time of a write-0 slot. -/
  w0H : Nat
  /-- `T_RL`, the low time of a read slot. -/
  rL : Nat
  /-- `T_RS`, from the release of a read slot to its sample. -/
  rS : Nat
  /-- `T_RR`, the recovery of a read slot. -/
  rR : Nat
  deriving DecidableEq, Repr

/-- The table of rule R11. `rstL` and `pds` are the source's exact figures; the other cells are the spec's
defaults (its decisions D8 and D9; assumption 5, UNSAFE if a real block is built with other values). -/
def Timing.ofProfile : Profile → Timing
  | .standard =>
    { rstPre := 0, rstL := 480000, pds := 70000, rstRec := 410000, w1L := 6000, w1H := 64000,
      w0L := 60000, w0H := 10000, rL := 6000, rS := 9000, rR := 55000 }
  | .fast =>
    { rstPre := 2500, rstL := 70000, pds := 8500, rstRec := 40000, w1L := 1000, w1H := 7500,
      w0L := 7500, w0H := 2500, rL := 1000, rS := 1000, rR := 7000 }

/-- The parameter list (rule R8). `REG_W` is fixed at 16 bits and is the type `Word`. -/
structure BuildConfig where
  /-- `PROFILE`, what `CONFIG` bit 0 shows (rule R33). -/
  profile : Profile
  /-- `TIMING`. -/
  timing : Timing
  /-- `PIN`, the selected pin (rule R12). -/
  pin : Nat
  /-- `GPIO_W`, the width of the GPIO entities (rule R12). -/
  gpioW : Nat
  /-- `BASE`, the address of register 0 (rule R25). -/
  base : Nat
  /-- `F_CLK_HZ`, the clock frequency (rule R256). -/
  fClkHz : Nat
  deriving DecidableEq, Repr

/-- `PROFILE` is open: chosen when the block is built (rule R10). -/
opaque Config.profile : Profile

/-- `PIN` is open: the platform's (rule R12). -/
opaque Config.pin : Nat

/-- How many bits of the GPIO entities lie above `PIN`; `GPIO_W` is open but for `PIN < GPIO_W` (rule R8). -/
opaque Config.bitsAbovePin : Nat

/-- `BASE` divided by 16; `BASE` is open but for being a multiple of 16 (rules R8, R65). -/
opaque Config.baseBlock : Nat

/-- `F_CLK_HZ` is open: the platform's (rule R8). -/
opaque Config.fClkHz : Nat

/-- Bit `i` of `DIR` at launch, for the bits that are not the block's (rule R45, last row). -/
opaque Config.otherDir : Nat → Bool

/-- Bit `i` of `OUT` at launch, for the bits that are not the block's (rule R45, last row). -/
opaque Config.otherOut : Nat → Bool

/-- THE FREE VALUE of the model: the level of the released line at the `n`-th sample of a run, after the given
trace. It is the environment oracle of rule R66, "a function of the trace so far and a free choice, under no
law" (assumption 3). -/
opaque Config.freeLevel : List LineEvent → Nat → Bool

/-- The parameters of this block. -/
def Config.build : BuildConfig :=
  { profile := Config.profile
    timing  := Timing.ofProfile Config.profile
    pin     := Config.pin
    gpioW   := Config.pin + 1 + Config.bitsAbovePin
    base    := 16 * Config.baseBlock
    fClkHz  := Config.fClkHz }

end Sys2Proof
end

