-- ==== Sys2Proof/Machine/State.lean ====
section
/-! DEFINITION. The state of the block and of what acts on it: registers and flags (rules R22 to R35), the
sequencer and its shift registers (rules R36 to R38), the GPIO entities (rule R40), the trace (rule R16), the
build configuration, and the pending moves of the host and the environment. Plain data throughout. -/

namespace Sys2Proof.Machine

/-- The sequencer `seq` (rule R36): `Idle | Running(op, arg, step, bit)`. -/
inductive Seq where
  | idle
  /-- `op` with operand `arg`; `step` is the index of the next primitive in the primitive list of the current
  slot, `bit` the index of the slot in a byte operation. -/
  | running (op : LineOp) (arg : Byte) (step bit : Nat)
  deriving DecidableEq, Repr

/-- One move of the world outside the block: the two actions of the host (rule R190), the host letting time
pass (rule R282), and hardware reset (rule R270). -/
inductive Input where
  /-- `RegRead(off)`. -/
  | regRead (off : Fin 8)
  /-- `RegWrite(off, w)`. -/
  | regWrite (off : Fin 8) (w : Word)
  /-- The host makes no access: a running operation performs its next primitive; an idle block rests for a gap
  of `gap` nanoseconds. -/
  | pass (gap : Nat)
  /-- The reset input is asserted, asynchronously, and released (rule R46). If the block is inside a delay, `elapsed`
  nanoseconds of it have passed by then (assumption 19). -/
  | hwReset (elapsed : Nat)
  deriving DecidableEq, Repr

/-- The state. -/
structure State where
  /-- `seq` (rule R36). `STATUS.BUSY` is 1 exactly while it is not idle (rule R28), so it has no field of its own. -/
  seq : Seq
  /-- `STATUS.PRESENCE` (rule R29). -/
  presence : Bool
  /-- `STATUS.RXBIT` (rule R30). -/
  rxbit : Bool
  /-- `STATUS.ILL` (rules R27, R241). -/
  ill : Bool
  /-- `STATUS.OVR` (rules R27, R242). -/
  ovr : Bool
  /-- `RXDATA` (rule R23). -/
  rxdata : Byte
  /-- `CRC` (rule R24). -/
  crc : Byte
  /-- `CTRL.SDM` (rule R32). -/
  sdm : Bool
  /-- `txsh`, the byte SENDB still has to send (rule R37). -/
  txsh : Byte
  /-- `rxacc`, the receive accumulator of RECVB (rule R38). -/
  rxacc : Byte
  /-- The last sampled level, `p` of rule R123 and `s` of rules R130 and R155, held from the sample to the end of
  the slot (assumption 8). -/
  sampled : Bool
  /-- The entity `DIR`, bit `i` at place `i`; the block owns bit `PIN` (rules R12, R40). -/
  dirPort : List Bool
  /-- The entity `OUT`, bit `i` at place `i`; the block owns bit `PIN` (rules R12, R40). -/
  outPort : List Bool
  /-- The trace, oldest event first (rule R16). -/
  trace : List LineEvent
  /-- The build configuration, `CONFIG.PROFILE` in it (rules R8, R33); no step changes it (assumption 4). -/
  cfg : BuildConfig
  /-- MODEL'S OWN. The levels the environment will show at the coming samples of a released line; where it is
  empty the free value answers (assumption 3). -/
  answers : List Bool
  /-- MODEL'S OWN. How many samples have been taken, the counter the free value is applied to (assumption 3). -/
  draws : Nat
  /-- MODEL'S OWN. The moves of the outside world still to come, next one first (assumption 1). -/
  inputs : List Input
  /-- MODEL'S OWN. What the host's register reads returned, oldest first (assumption 12). -/
  reads : List Word
  deriving DecidableEq, Repr

/-- Reasons for a step to stop with a fault. There is none: "The block raises no trap" (rule R240) and "A model
must not add a fault" for what the block does not detect (rule R247). -/
inductive Fault where
  deriving DecidableEq, Repr

/-- Reasons for a step to be refused. -/
inductive Refusal where
  /-- The instruction has no meaning in the model yet. Safe. No arm of the model raises it: all eight
  operations have their meaning. -/
  | notModelled (mnemonic : String)
  deriving DecidableEq, Repr

/-- `DIR[PIN]`: 1 drives the line, 0 releases it (rule R40). It is the signal `ow_dir` (rule R46). -/
def State.dir (s : State) : Bool := s.dirPort.getD s.cfg.pin false

/-- `OUT[PIN]`, the level driven while `DIR[PIN]` is 1 (rule R40). It is the signal `ow_drv` (rule R46). -/
def State.drv (s : State) : Bool := s.outPort.getD s.cfg.pin false

/-- The launch state (rules R45, R270). `txsh`, `rxacc` and `sampled` have no reset value in the spec and take
zero (assumption 7, DESIGN CHOICE). -/
def State.reset : State :=
  { seq := .idle
    presence := false
    rxbit := false
    ill := false
    ovr := false
    rxdata := 0x00
    crc := 0x00
    sdm := false
    txsh := 0x00
    rxacc := 0x00
    sampled := false
    dirPort := (List.range Config.build.gpioW).map (fun i => i != Config.build.pin && Config.otherDir i)
    outPort := (List.range Config.build.gpioW).map (fun i => i != Config.build.pin && Config.otherOut i)
    trace := []
    cfg := Config.build
    answers := []
    draws := 0
    inputs := []
    reads := [] }

end Sys2Proof.Machine
end

