-- ==== Sys2Proof/Machine/Flags.lean ====
section
/-! DEFINITION. The flags of `STATUS` (rules R27 to R31): how each is computed, the word the host reads, and the
write that clears the sticky ones. -/

namespace Sys2Proof.Machine

/-- `STATUS.BUSY`: 1 exactly while the sequencer is not idle (rule R28). -/
def State.busy (s : State) : Bool :=
  match s.seq with
  | .idle          => false
  | .running _ _ _ _ => true

/-- `PRESENCE` from the presence sample: 1 iff the sample was 0 (rules R123, R125). -/
def presenceOf (p : Bool) : Bool := !p

/-- A flag at bit `k` of a register word. -/
def flagBit (k : Nat) (b : Bool) : Word := if b then BitVec.twoPow 16 k else 0

/-- `zext_16({OVR, ILL, RXBIT, PRESENCE, BUSY})`, bits 4, 3, 2, 1, 0; bits 15:5 read 0 (rules R27, R191). -/
def State.statusWord (s : State) : Word :=
  flagBit 0 s.busy ||| flagBit 1 s.presence ||| flagBit 2 s.rxbit ||| flagBit 3 s.ill ||| flagBit 4 s.ovr

end Sys2Proof.Machine
end

