-- ==== Sys2Proof/Machine/Operands.lean ====
section
/-! DEFINITION. Operands as the sequencer holds them (rules R36, R93): taken as they stand, with no extension,
scaling or shift. There are no addressing modes and no register operands (rules R93, R197). -/

namespace Sys2Proof.Machine

/-- `b = arg[0]`, the operand of format B (rule R93). -/
def bitOperand (arg : Byte) : Bool := arg.getLsbD 0

/-- The `arg` byte that holds the bit operand `b`, its other bits zero (rule R92). -/
def bitArg (b : Bool) : Byte := if b then 1 else 0

/-- The `arg` byte of an operation with no operand (rule R92). -/
def noArg : Byte := 0

end Sys2Proof.Machine
end

