-- ==== Sys2Proof/Machine/Ops.lean ====
section
/-! DEFINITION. The shared operations: the GPIO capability, the four primitives, issue of a command, and the
block's one form of exception, the setting of a sticky error flag (rule R250), with its return, the clearing
of the flag (rule R251). -/

namespace Sys2Proof.Machine

/-! ## The GPIO capability (rules R12, R15, R68) -/

/-- `GpioSet(e, PIN)`: bit `pin` becomes 1, no other bit changes. -/
def gpioSet (e : List Bool) (pin : Nat) : List Bool := e.set pin true

/-- `GpioClear(e, PIN)`: bit `pin` becomes 0, no other bit changes. -/
def gpioClear (e : List Bool) (pin : Nat) : List Bool := e.set pin false

/-! ## The line (rule R66) -/

/-- What the environment shows on a released line at the sample now taken: its next pending level, or where
none is pending the free value (assumption 3). -/
def State.released (s : State) : Bool :=
  match s.answers with
  | []     => Config.freeLevel s.trace s.draws
  | v :: _ => v

/-- `IN[PIN]`, the level of the line: 0 if the block drives it low, and otherwise what the environment shows. It
is the signal `ow_in` (rule R46). -/
def State.lineLevel (s : State) : Bool := !s.dir && s.released

/-! ## The primitives (rules R15, R121, R122) -/

/-- `DriveLow()`: `GpioSet(DIR, PIN)`; `OUT[PIN]` is 0 already and is not written (rules R40, R121). -/
def driveLow (s : State) : State :=
  { s with dirPort := gpioSet s.dirPort s.cfg.pin, trace := s.trace ++ [.driveLow] }

/-- `Release()`: `GpioClear(DIR, PIN)` (rule R122). -/
def release (s : State) : State :=
  { s with dirPort := gpioClear s.dirPort s.cfg.pin, trace := s.trace ++ [.release] }

/-- The event of a delay: `Wait(t)` when `t > 0`, none when `t = 0` (rule R15). -/
def waitEvents (t : Nat) : List LineEvent := if t = 0 then [] else [.wait t]

/-- `Delay(t)`: exactly `t` nanoseconds pass, the pin unchanged (rule R15). -/
def delay (t : Nat) (s : State) : State := { s with trace := s.trace ++ waitEvents t }

/-- `Sample()`: the level of the line is read once and kept for the end of the slot; the environment's answer is
used up (rules R15, R66). -/
def sample (s : State) : State :=
  { s with
    sampled := s.lineLevel
    trace   := s.trace ++ [.sample s.lineLevel]
    answers := s.answers.tail
    draws   := s.draws + 1 }

/-- Perform one primitive (rule R15). -/
def perform : Prim → State → State
  | .driveLow, s => driveLow s
  | .release,  s => release s
  | .delay t,  s => delay t s
  | .sample,   s => sample s

/-! ## Errors (rules R240 to R251) -/

/-- The two conditions `raise` takes (rule R14). -/
inductive ErrorFlag where
  | ill
  | ovr
  deriving DecidableEq, Repr

/-- `raise ILL`, `raise OVR`: the sticky flag is set and nothing else changes (rules R14, R241, R242, R250). -/
def raise : ErrorFlag → State → State
  | .ill, s => { s with ill := true }
  | .ovr, s => { s with ovr := true }

/-- The return from `raise`: a host write of `w` to `STATUS` clears `ILL` where `w[3]` is 1 and `OVR` where
`w[4]` is 1, and ignores every other bit (rules R192, R251). -/
def clearErrors (w : Word) (s : State) : State :=
  { s with
    ill := s.ill && !w.getLsbD 3
    ovr := s.ovr && !w.getLsbD 4 }

/-! ## Issue (rule R98) -/

/-- `seq <- Running(op, arg, 0, 0)`, and with it `BUSY` becomes 1 (rule R98). -/
def start (op : LineOp) (arg : Byte) (s : State) : State := { s with seq := .running op arg 0 0 }

/-- The gate every command passes: while `BUSY` is 1 it is dropped and `OVR` is set; otherwise it has its effect
(rules R98, R242, R249). -/
def issue (s : State) (effect : State) : Host.Outcome State Fault Refusal :=
  if s.busy then .next (raise .ovr s) else .next effect

end Sys2Proof.Machine
end

