-- ==== Sys2Proof/Machine/Line.lean ====
section
/-! DEFINITION. The line operations LRESET, WBIT, RBIT (rules R120 to R133): what issuing each does, its primitive
list, and what its completion writes. The sequencer performs the list (Machine/Sequencer.lean). -/

namespace Sys2Proof.Machine

/-! ## LRESET (rules R123 to R126) -/

/-- LRESET issued (rules R98, R123). -/
def execLreset (s : State) : Host.Outcome State Fault Refusal := issue s (start .lreset noArg s)

/-- Steps 0 to 6 of LRESET (rule R123). -/
def lresetPrims (T : Timing) : List Prim :=
  [.delay T.rstPre, .driveLow, .delay T.rstL, .release, .delay T.pds, .sample, .delay T.rstRec]

/-- Completion of LRESET: `STATUS.PRESENCE <- (p = 0 ? 1 : 0)` (rules R123, R125). -/
def lresetComplete (s : State) : State := { s with presence := presenceOf s.sampled, seq := .idle }

/-! ## WBIT (rules R127 to R129) -/

/-- WBIT issued (rules R98, R127). -/
def execWbit (b : Bool) (s : State) : Host.Outcome State Fault Refusal := issue s (start .wbit (bitArg b) s)

/-- Steps 0 to 3 of WBIT for the bit `b`; also one slot of SENDB (rules R127, R151). -/
def writeSlot (T : Timing) (b : Bool) : List Prim :=
  [.driveLow, .delay (if b then T.w1L else T.w0L), .release, .delay (if b then T.w1H else T.w0H)]

/-- The primitive list of WBIT with operand byte `arg` (rule R127). -/
def wbitPrims (T : Timing) (arg : Byte) : List Prim := writeSlot T (bitOperand arg)

/-- Completion of WBIT: no result (rule R127). -/
def wbitComplete (s : State) : State := { s with seq := .idle }

/-! ## RBIT (rules R130, R131) -/

/-- RBIT issued (rules R98, R130). -/
def execRbit (s : State) : Host.Outcome State Fault Refusal := issue s (start .rbit noArg s)

/-- Steps 0 to 5 of RBIT; also one slot of RECVB (rules R130, R155). -/
def readSlot (T : Timing) : List Prim :=
  [.driveLow, .delay T.rL, .release, .delay T.rS, .sample, .delay T.rR]

/-- The primitive list of RBIT (rule R130). -/
def rbitPrims (T : Timing) : List Prim := readSlot T

/-- Completion of RBIT: `STATUS.RXBIT <- s`, the level itself (rule R130). -/
def rbitComplete (s : State) : State := { s with rxbit := s.sampled, seq := .idle }

end Sys2Proof.Machine
end

