-- ==== Sys2Proof/Machine/Bytes.lean ====
section
/-! DEFINITION. The byte operations SENDB and RECVB (rules R150 to R158): eight write or read slots inside one
operation, least-significant bit first, with no delay between the slots. -/

namespace Sys2Proof.Machine

/-- The number of slots of a byte operation (rules R9, R150). -/
def byteSlots : Nat := 8

/-! ## SENDB (rules R151, R152) -/

/-- SENDB issued: `txsh <- v`, and the operation starts (rules R37, R98, R151). -/
def execSendb (v : Byte) (s : State) : Host.Outcome State Fault Refusal :=
  issue s { start .sendb v s with txsh := v }

/-- One slot of SENDB: a write slot for `b <- txsh[0]` (rule R151). -/
def sendbSlot (T : Timing) (txsh : Byte) : List Prim := writeSlot T (txsh.getLsbD 0)

/-- The end of a slot of SENDB: `txsh <- txsh >> 1` (rule R151). -/
def sendbSlotEnd (s : State) : State := { s with txsh := s.txsh >>> 1 }

/-- Completion of SENDB: no result (rule R151). -/
def sendbComplete (s : State) : State := { s with seq := .idle }

/-! ## RECVB (rules R155 to R157) -/

/-- RECVB issued (rules R98, R155). `rxacc` is not cleared: its old value does not matter (rule R38). -/
def execRecvb (s : State) : Host.Outcome State Fault Refusal := issue s (start .recvb noArg s)

/-- One slot of RECVB: a read slot (rule R155). -/
def recvbSlot (T : Timing) : List Prim := readSlot T

/-- `rxacc <- rxacc >> 1`; then, if the sample is 1, `rxacc <- rxacc | 0x80` (rule R155). -/
def rxShift (acc : Byte) (v : Bool) : Byte := if v then (acc >>> 1) ||| 0x80 else acc >>> 1

/-- The end of a slot of RECVB: the sample enters the accumulator (rule R155). -/
def recvbSlotEnd (s : State) : State := { s with rxacc := rxShift s.rxacc s.sampled }

/-- Completion of RECVB: `RXDATA <- rxacc` (rules R23, R155). -/
def recvbComplete (s : State) : State := { s with rxdata := s.rxacc, seq := .idle }

end Sys2Proof.Machine
end

