-- ==== Sys2Proof/Machine/Crc.lean ====
section
/-! DEFINITION. The CRC-8 generator: CRCCLR, CRCB, CRCT (rules R170 to R182), its step in both listings of rule
R172, and the constant table of rule R176, written out as the spec prints it. -/

namespace Sys2Proof.Machine

/-- The feedback constant: x^8+x^5+x^4+1 in a right-shifting register (rules R172, R179). -/
def crcPoly : Byte := 0x8C

/-- One of the eight repetitions of rule R172: shift right, and add the polynomial if a 1 left the register. -/
def crcShift (c : Byte) : Byte := if c.getLsbD 0 then (c >>> 1) ^^^ crcPoly else c >>> 1

/-- `n` repetitions (rule R172). -/
def crcShifts : Nat → Byte → Byte
  | 0,     c => c
  | n + 1, c => crcShifts n (crcShift c)

/-- `Step(c, v)`: the byte is folded in at once, then eight repetitions (rule R172, first listing). -/
def crcStep (c v : Byte) : Byte := crcShifts 8 (c ^^^ v)

/-- One input bit of the bit-serial listing (rule R172, second listing). -/
def crcBit (c : Byte) (bit : Bool) : Byte :=
  if c.getLsbD 0 ^^ bit then (c >>> 1) ^^^ crcPoly else c >>> 1

/-- The bit-serial listing: bit 0 of `v` first (rule R172, second listing). -/
def crcSerial (c v : Byte) : Byte := (List.range 8).foldl (fun c i => crcBit c (v.getLsbD i)) c

/-- Row 0x0_ of the table of rule R176. -/
def crcRow0 : List Byte :=
  [0x00, 0x5E, 0xBC, 0xE2, 0x61, 0x3F, 0xDD, 0x83, 0xC2, 0x9C, 0x7E, 0x20, 0xA3, 0xFD, 0x1F, 0x41]

/-- Row 0x1_ of the table of rule R176. -/
def crcRow1 : List Byte :=
  [0x9D, 0xC3, 0x21, 0x7F, 0xFC, 0xA2, 0x40, 0x1E, 0x5F, 0x01, 0xE3, 0xBD, 0x3E, 0x60, 0x82, 0xDC]

/-- Row 0x2_ of the table of rule R176. -/
def crcRow2 : List Byte :=
  [0x23, 0x7D, 0x9F, 0xC1, 0x42, 0x1C, 0xFE, 0xA0, 0xE1, 0xBF, 0x5D, 0x03, 0x80, 0xDE, 0x3C, 0x62]

/-- Row 0x3_ of the table of rule R176. -/
def crcRow3 : List Byte :=
  [0xBE, 0xE0, 0x02, 0x5C, 0xDF, 0x81, 0x63, 0x3D, 0x7C, 0x22, 0xC0, 0x9E, 0x1D, 0x43, 0xA1, 0xFF]

/-- Row 0x4_ of the table of rule R176. -/
def crcRow4 : List Byte :=
  [0x46, 0x18, 0xFA, 0xA4, 0x27, 0x79, 0x9B, 0xC5, 0x84, 0xDA, 0x38, 0x66, 0xE5, 0xBB, 0x59, 0x07]

/-- Row 0x5_ of the table of rule R176. -/
def crcRow5 : List Byte :=
  [0xDB, 0x85, 0x67, 0x39, 0xBA, 0xE4, 0x06, 0x58, 0x19, 0x47, 0xA5, 0xFB, 0x78, 0x26, 0xC4, 0x9A]

/-- Row 0x6_ of the table of rule R176. -/
def crcRow6 : List Byte :=
  [0x65, 0x3B, 0xD9, 0x87, 0x04, 0x5A, 0xB8, 0xE6, 0xA7, 0xF9, 0x1B, 0x45, 0xC6, 0x98, 0x7A, 0x24]

/-- Row 0x7_ of the table of rule R176. -/
def crcRow7 : List Byte :=
  [0xF8, 0xA6, 0x44, 0x1A, 0x99, 0xC7, 0x25, 0x7B, 0x3A, 0x64, 0x86, 0xD8, 0x5B, 0x05, 0xE7, 0xB9]

/-- Row 0x8_ of the table of rule R176. -/
def crcRow8 : List Byte :=
  [0x8C, 0xD2, 0x30, 0x6E, 0xED, 0xB3, 0x51, 0x0F, 0x4E, 0x10, 0xF2, 0xAC, 0x2F, 0x71, 0x93, 0xCD]

/-- Row 0x9_ of the table of rule R176. -/
def crcRow9 : List Byte :=
  [0x11, 0x4F, 0xAD, 0xF3, 0x70, 0x2E, 0xCC, 0x92, 0xD3, 0x8D, 0x6F, 0x31, 0xB2, 0xEC, 0x0E, 0x50]

/-- Row 0xA_ of the table of rule R176. -/
def crcRowA : List Byte :=
  [0xAF, 0xF1, 0x13, 0x4D, 0xCE, 0x90, 0x72, 0x2C, 0x6D, 0x33, 0xD1, 0x8F, 0x0C, 0x52, 0xB0, 0xEE]

/-- Row 0xB_ of the table of rule R176. -/
def crcRowB : List Byte :=
  [0x32, 0x6C, 0x8E, 0xD0, 0x53, 0x0D, 0xEF, 0xB1, 0xF0, 0xAE, 0x4C, 0x12, 0x91, 0xCF, 0x2D, 0x73]

/-- Row 0xC_ of the table of rule R176. -/
def crcRowC : List Byte :=
  [0xCA, 0x94, 0x76, 0x28, 0xAB, 0xF5, 0x17, 0x49, 0x08, 0x56, 0xB4, 0xEA, 0x69, 0x37, 0xD5, 0x8B]

/-- Row 0xD_ of the table of rule R176. -/
def crcRowD : List Byte :=
  [0x57, 0x09, 0xEB, 0xB5, 0x36, 0x68, 0x8A, 0xD4, 0x95, 0xCB, 0x29, 0x77, 0xF4, 0xAA, 0x48, 0x16]

/-- Row 0xE_ of the table of rule R176. -/
def crcRowE : List Byte :=
  [0xE9, 0xB7, 0x55, 0x0B, 0x88, 0xD6, 0x34, 0x6A, 0x2B, 0x75, 0x97, 0xC9, 0x4A, 0x14, 0xF6, 0xA8]

/-- Row 0xF_ of the table of rule R176. -/
def crcRowF : List Byte :=
  [0x74, 0x2A, 0xC8, 0x96, 0x15, 0x4B, 0xA9, 0xF7, 0xB6, 0xE8, 0x0A, 0x54, 0xD7, 0x89, 0x6B, 0x35]

/-- `CRC_TABLE`, 256 entries of 8 bits, a read-only constant (rules R41, R176). -/
def crcTable : List Byte :=
  crcRow0 ++ crcRow1 ++ crcRow2 ++ crcRow3 ++ crcRow4 ++ crcRow5 ++ crcRow6 ++ crcRow7 ++
  crcRow8 ++ crcRow9 ++ crcRowA ++ crcRowB ++ crcRowC ++ crcRowD ++ crcRowE ++ crcRowF

/-- `CRC_TABLE[i]`; the index is always in range (rules R15, R197). -/
def crcLookup (i : Byte) : Byte := crcTable.getD i.toNat 0

/-- `CRC8(b_0, ..., b_{n-1})` of a byte sequence, zero start, no final exclusive-or (rule R177). -/
def crc8 (bs : List Byte) : Byte := bs.foldl crcStep 0

/-- CRCCLR: `CRC <- 0x00` (rules R171, R174). -/
def execCrcclr (s : State) : Host.Outcome State Fault Refusal := issue s { s with crc := 0x00 }

/-- CRCB, the bitwise form: `CRC <- Step(CRC, v)` (rules R172, R174). -/
def execCrcb (v : Byte) (s : State) : Host.Outcome State Fault Refusal :=
  issue s { s with crc := crcStep s.crc v }

/-- CRCT, the table form: `CRC <- CRC_TABLE[CRC ^ v]` (rules R173, R174). -/
def execCrct (v : Byte) (s : State) : Host.Outcome State Fault Refusal :=
  issue s { s with crc := crcLookup (s.crc ^^^ v) }

end Sys2Proof.Machine
end

