-- ==== Sys2Proof/Machine/Dispatch.lean ====
section
/-! DEFINITION. One arm per operation: what issuing it does (rule R98). -/

namespace Sys2Proof.Machine

def exec (i : Instr) (s : State) : Host.Outcome State Fault Refusal :=
  match i with
  | .lreset => Sys2Proof.Machine.execLreset s
  | .wbit b => Sys2Proof.Machine.execWbit b s
  | .rbit => Sys2Proof.Machine.execRbit s
  | .sendb v => Sys2Proof.Machine.execSendb v s
  | .recvb => Sys2Proof.Machine.execRecvb s
  | .crcclr => Sys2Proof.Machine.execCrcclr s
  | .crcb v => Sys2Proof.Machine.execCrcb v s
  | .crct v => Sys2Proof.Machine.execCrct v s

end Sys2Proof.Machine
end

