-- ==== Sys2Proof/WellFormed.lean ====
section
/-! DEFINITION. Which command fields are legal (rules R92, R94, R96), and the well-formedness of an operation:
that the fields it stands for are legal. -/

namespace Sys2Proof

/-- What format `n`, `b` or `y` admits in the `arg` field (rule R92). -/
def Format.admits : Format → Byte → Bool
  | .n, arg => arg == 0
  | .b, arg => arg == 0 || arg == 1
  | .y, _   => true

/-- The `op` field and the `arg` field of an operation (rules R92, R94). -/
def Instr.command : Instr → Command
  | .lreset  => ⟨0x01, 0⟩
  | .wbit b  => ⟨0x02, if b then 1 else 0⟩
  | .rbit    => ⟨0x03, 0⟩
  | .sendb v => ⟨0x04, v⟩
  | .recvb   => ⟨0x05, 0⟩
  | .crcclr  => ⟨0x08, 0⟩
  | .crcb v  => ⟨0x09, v⟩
  | .crct v  => ⟨0x0A, v⟩

/-- The format of each assigned `op` value; no other value is assigned (rules R94, R96). -/
def formatOfOp (op : Byte) : Option Format :=
  if op = 0x01 then some .n
  else if op = 0x02 then some .b
  else if op = 0x03 then some .n
  else if op = 0x04 then some .y
  else if op = 0x05 then some .n
  else if op = 0x08 then some .n
  else if op = 0x09 then some .y
  else if op = 0x0A then some .y
  else none

/-- A command is well formed when its `op` is assigned and its `arg` is one the format admits (rules R92, R96). -/
def Command.wellFormed (c : Command) : Bool :=
  match formatOfOp c.op with
  | some f => f.admits c.arg
  | none   => false

/-- An operation is well formed when its command fields are. -/
def Instr.wellFormed (i : Instr) : Bool := i.command.wellFormed

end Sys2Proof
end

