-- ==== Sys2Proof/Decode.lean ====
section
/-! DEFINITION. The decoder of command words (rules R90 to R96), total on all 65536 words and rejecting by
name, and after it the encoder, written from the same opcode map (rule R94). -/

namespace Sys2Proof

/-- Why a word is illegal (rule R96). The block records neither reason: both set the same flag (rule R249). -/
inductive IllegalWord where
  /-- `op` is 0x00, 0x06, 0x07 or at least 0x0B. -/
  | unassignedOp
  /-- A bit of `arg` that must be zero is set. -/
  | mustBeZeroSet
  deriving DecidableEq, Repr

/-- `Operation | Illegal`, the answer of the decoder (rule R95). -/
inductive Decoded where
  | operation (i : Instr)
  | illegal (why : IllegalWord)
  deriving DecidableEq, Repr

/-- The `op` field, bits 15:8 (rule R90). -/
def opField (w : Word) : Byte := w.extractLsb' 8 8

/-- The `arg` field, bits 7:0 (rule R90). -/
def argField (w : Word) : Byte := w.extractLsb' 0 8

/-- A format N operation: `arg` must be zero (rule R92). -/
def decodeN (i : Instr) (arg : Byte) : Decoded :=
  if arg = 0 then .operation i else .illegal .mustBeZeroSet

/-- A format B operation: `arg[7:1]` must be zero, `arg[0]` is the bit (rules R92, R93). -/
def decodeB (i : Bool → Instr) (arg : Byte) : Decoded :=
  if arg.extractLsb' 1 7 = 0 then .operation (i (arg.getLsbD 0)) else .illegal .mustBeZeroSet

/-- A format Y operation: all of `arg` is the byte (rules R92, R93). -/
def decodeY (i : Byte → Instr) (arg : Byte) : Decoded := .operation (i arg)

/-- The row of the opcode map with the given `op`, applied to `arg` (rule R94). -/
def decodeFields (op arg : Byte) : Decoded :=
  if op = 0x01 then decodeN .lreset arg
  else if op = 0x02 then decodeB .wbit arg
  else if op = 0x03 then decodeN .rbit arg
  else if op = 0x04 then decodeY .sendb arg
  else if op = 0x05 then decodeN .recvb arg
  else if op = 0x08 then decodeN .crcclr arg
  else if op = 0x09 then decodeY .crcb arg
  else if op = 0x0A then decodeY .crct arg
  else .illegal .unassignedOp

/-- `Decode : Word16 -> Operation | Illegal` (rule R95). -/
def decode (w : Word) : Decoded := decodeFields (opField w) (argField w)

/-- The operation a word stands for, if it stands for one. -/
def Decoded.instr? : Decoded → Option Instr
  | .operation i => some i
  | .illegal _   => none

/-- The instruction the decoder reads from `nbits` bits of value `w`, numbered as the opcode table numbers
them: a command is one 16-bit word (rule R90), so bit `k` of `w` is bit `k` of the word, and bits from `nbits`
up are zero. -/
def decodeTableWord (nbits w : Nat) : Option Instr :=
  (decode (BitVec.ofNat 16 (w % 2 ^ nbits))).instr?

/-- The word with the given fields (rule R90). -/
def Command.word (c : Command) : Word := c.op ++ c.arg

/-- The command word of an operation, from the "match" column of the opcode map (rule R94). -/
def encode : Instr → Word
  | .lreset  => 0x0100
  | .wbit b  => 0x0200 ||| (if b then 1 else 0)
  | .rbit    => 0x0300
  | .sendb v => 0x0400 ||| v.setWidth 16
  | .recvb   => 0x0500
  | .crcclr  => 0x0800
  | .crcb v  => 0x0900 ||| v.setWidth 16
  | .crct v  => 0x0A00 ||| v.setWidth 16

/-- A row of the opcode map (rule R94): the word selects the row iff `w &&& mask = pattern`. -/
structure OpcodeRow where
  pattern : Word
  mask    : Word
  deriving DecidableEq, Repr

/-- The "match" and "mask" columns of the opcode map (rule R94). -/
def Instr.row : Instr → OpcodeRow
  | .lreset  => ⟨0x0100, 0xFFFF⟩
  | .wbit _  => ⟨0x0200, 0xFFFE⟩
  | .rbit    => ⟨0x0300, 0xFFFF⟩
  | .sendb _ => ⟨0x0400, 0xFF00⟩
  | .recvb   => ⟨0x0500, 0xFFFF⟩
  | .crcclr  => ⟨0x0800, 0xFFFF⟩
  | .crcb _  => ⟨0x0900, 0xFF00⟩
  | .crct _  => ⟨0x0A00, 0xFF00⟩

/-- The eight rows, in the map's order (rule R94). -/
def opcodeRows : List OpcodeRow :=
  [⟨0x0100, 0xFFFF⟩, ⟨0x0200, 0xFFFE⟩, ⟨0x0300, 0xFFFF⟩, ⟨0x0400, 0xFF00⟩,
   ⟨0x0500, 0xFFFF⟩, ⟨0x0800, 0xFFFF⟩, ⟨0x0900, 0xFF00⟩, ⟨0x0A00, 0xFF00⟩]

/-- A word selects a row (rule R94). -/
def OpcodeRow.selects (r : OpcodeRow) (w : Word) : Bool := w &&& r.mask == r.pattern

end Sys2Proof
end

