-- ==== Sys2Proof/Machine/Sequencer.lean ====
section
/-! DEFINITION. The sequencer (rule R36): one primitive of the running operation at a time, in list order, with
no branch, no skip and no early exit, to completion. -/

namespace Sys2Proof.Machine

/-- The primitive list of the current slot of an operation (rules R123, R127, R130, R151, R155). -/
def slotPrims (op : LineOp) (arg : Byte) (s : State) : List Prim :=
  match op with
  | .lreset => lresetPrims s.cfg.timing
  | .wbit   => wbitPrims s.cfg.timing arg
  | .rbit   => rbitPrims s.cfg.timing
  | .sendb  => sendbSlot s.cfg.timing s.txsh
  | .recvb  => recvbSlot s.cfg.timing

/-- How many slots an operation has (rules R36, R150). -/
def slotCount : LineOp → Nat
  | .lreset => 1
  | .wbit   => 1
  | .rbit   => 1
  | .sendb  => byteSlots
  | .recvb  => byteSlots

/-- What the end of a slot does to the shift registers (rules R151, R155). -/
def slotEnd : LineOp → State → State
  | .lreset, s => s
  | .wbit,   s => s
  | .rbit,   s => s
  | .sendb,  s => sendbSlotEnd s
  | .recvb,  s => recvbSlotEnd s

/-- Completion: the result field is written and the sequencer becomes idle in the same instant (rules R28, R98). -/
def complete : LineOp → State → State
  | .lreset, s => lresetComplete s
  | .wbit,   s => wbitComplete s
  | .rbit,   s => rbitComplete s
  | .sendb,  s => sendbComplete s
  | .recvb,  s => recvbComplete s

/-- Move on after primitive `step` of `len` in slot `bit`: to the next primitive, else to the next slot, else to
completion. It happens with that primitive, for "`seq` ... returns to `Idle` when the last primitive of the
operation has been performed" (rule R36). -/
def advance (op : LineOp) (arg : Byte) (step bit len : Nat) (s : State) : State :=
  if step + 1 < len then { s with seq := .running op arg (step + 1) bit }
  else if bit + 1 < slotCount op then { slotEnd op s with seq := .running op arg 0 (bit + 1) }
  else complete op (slotEnd op s)

/-- Perform the primitive at index `step` of a list. -/
def performAt (ps : List Prim) (step : Nat) (s : State) : State :=
  match ps[step]? with
  | some p => perform p s
  | none   => s

/-- One move of the block: a running operation performs its next primitive (rule R36); an idle block "simply
does nothing" (rule R260). -/
def tick (s : State) : State :=
  match s.seq with
  | .idle => s
  | .running op arg step bit =>
    advance op arg step bit (slotPrims op arg s).length (performAt (slotPrims op arg s) step s)

/-- `n` moves of the block with no move of the host between them. -/
def ticks : Nat → State → State
  | 0,     s => s
  | n + 1, s => ticks n (tick s)

end Sys2Proof.Machine
end

