-- ==== Sys2Proof/Machine/Registers.lean ====
section
/-! DEFINITION. The host's actions (rules R190 to R194): the register map, reads, writes, what a write to `CMD`
is, a gap, and hardware reset (rules R270, R271). -/

namespace Sys2Proof.Machine

/-- The eight registers of the map (rule R25). -/
inductive Reg where
  | cmd
  | status
  | rxdata
  | crc
  | ctrl
  | config
  | reserved6
  | reserved7
  deriving DecidableEq, Repr

/-- The register at a word offset (rule R25). -/
def regAt (off : Fin 8) : Reg :=
  match off with
  | 0 => .cmd
  | 1 => .status
  | 2 => .rxdata
  | 3 => .crc
  | 4 => .ctrl
  | 5 => .config
  | 6 => .reserved6
  | 7 => .reserved7

/-- Bit 0 of `CONFIG`: 0 standard, 1 fast (rule R33). -/
def profileBit : Profile → Bool
  | .standard => false
  | .fast     => true

/-- `RegRead(off)`: the value returned (rule R191). -/
def regRead (s : State) (off : Fin 8) : Word :=
  match regAt off with
  | .cmd       => 0
  | .status    => s.statusWord
  | .rxdata    => s.rxdata.setWidth 16
  | .crc       => s.crc.setWidth 16
  | .ctrl      => flagBit 0 s.sdm
  | .config    => flagBit 0 (profileBit s.cfg.profile)
  | .reserved6 => 0
  | .reserved7 => 0

/-- A host read: the value goes to the host, the block is unchanged (rules R67, R191). -/
def hostRead (off : Fin 8) (s : State) : State := { s with reads := s.reads ++ [regRead s off] }

/-- `RegWrite(off, w)` for every register but `CMD` (rules R192, R193, R194). -/
def regWrite (off : Fin 8) (w : Word) (s : State) : State :=
  match regAt off with
  | .cmd       => s
  | .status    => clearErrors w s
  | .rxdata    => s
  | .crc       => s
  | .ctrl      => { s with sdm := w.getLsbD 0 }
  | .config    => s
  | .reserved6 => s
  | .reserved7 => s

/-- What a host write is (rule R98). -/
inductive WriteKind where
  /-- A write to a register other than `CMD`. -/
  | register
  /-- A write to `CMD` while `BUSY` is 1; the word is not decoded. -/
  | overrun
  /-- An illegal word written to `CMD` while idle. -/
  | illegal
  /-- An operation issued while idle. -/
  | command (i : Instr)
  deriving DecidableEq, Repr

/-- Sort a host write. `BUSY` is tested before the word is decoded (rules R98, R249). -/
def writeKind (s : State) (off : Fin 8) (w : Word) : WriteKind :=
  match regAt off with
  | .cmd =>
    if s.busy then .overrun
    else match decode w with
      | .operation i => .command i
      | .illegal _   => .illegal
  | _ => .register

/-- The host makes no access. A running operation performs its next primitive; on an idle block a gap of `gap`
nanoseconds passes, which the trace records as time (rules R16, R282, R292; assumption 10). -/
def hostPass (gap : Nat) (s : State) : State := if s.busy then tick s else delay gap s

/-- How much of a primitive has passed `elapsed` nanoseconds after it began: of `Delay(t)` at most `t`; the other
primitives take no time (rules R15, R16). -/
def elapsedOf (elapsed : Nat) : Option Prim → Nat
  | some .driveLow  => 0
  | some .release   => 0
  | some (.delay t) => min elapsed t
  | some .sample    => 0
  | none            => 0

/-- How much of the delay the sequencer stands at has passed when reset is asserted `elapsed` nanoseconds into it.
An idle block is inside no delay. -/
def cutDelay (elapsed : Nat) (s : State) : Nat :=
  match s.seq with
  | .idle               => 0
  | .running op arg k _ => elapsedOf elapsed (slotPrims op arg s)[k]?

/-- The trace events of a reset: the wait for the part of a delay that has passed, then `Release` if the pin was
driving, for the pin is released in the same instant (rule R271). That the part stands in the trace as a wait of its
own length is the model's choice (assumption 19, DESIGN CHOICE, safe): the spec does not say how it is traced. -/
def resetEvents (elapsed : Nat) (s : State) : List LineEvent :=
  waitEvents (cutDelay elapsed s) ++ if s.dir then [.release] else []

/-- Hardware reset at any time, `elapsed` nanoseconds into a running delay too: every register to its reset value, the
operation abandoned with no result, the pin released; the trace is kept, and the other bits of the GPIO entities are
not touched (rules R45, R46, R270, R271). DESIGN CHOICE: a reset during an operation is admitted (assumption 11), and
the part of a delay that has passed is traced as a wait of its own length (assumption 19). -/
def hardwareReset (elapsed : Nat) (s : State) : State :=
  { s with
    seq      := .idle
    presence := false
    rxbit    := false
    ill      := false
    ovr      := false
    rxdata   := 0x00
    crc      := 0x00
    sdm      := false
    txsh     := 0x00
    rxacc    := 0x00
    sampled  := false
    dirPort  := gpioClear s.dirPort s.cfg.pin
    outPort  := gpioClear s.outPort s.cfg.pin
    trace    := s.trace ++ resetEvents elapsed s }

/-! ## The platform's side of a host access (rules R65, R71) -/

/-- The byte address of a register on a byte-addressed platform: `BASE + 2*off` (rule R65). -/
def byteAddress (c : BuildConfig) (off : Fin 8) : Nat := c.base + 2 * off.val

/-- The register a 16-bit access at byte address `a` reaches; none for a misaligned address or one outside the
eight registers, which a bridge must not forward (rules R65, R71). -/
def offsetOfAddress (c : BuildConfig) (a : Nat) : Option (Fin 8) :=
  if c.base ≤ a ∧ (a - c.base) % 2 = 0 then
    if h : (a - c.base) / 2 < 8 then some ⟨(a - c.base) / 2, h⟩ else none
  else none

/-- How many clock periods the hardware takes for `Delay(t)`: `ceil(t * F_CLK_HZ / 10^9)` (rule R256). The model
itself uses exactly `t` nanoseconds. -/
def clockPeriods (c : BuildConfig) (t : Nat) : Nat := (t * c.fClkHz + (10 ^ 9 - 1)) / 10 ^ 9

end Sys2Proof.Machine
end

