-- ==== Sys2Proof/Machine/Step.lean ====
section
/-! DEFINITION. One step: the next move of the outside world if one is pending, and otherwise one move of the
block (rules R20, R73, R190; assumption 1). -/

namespace Sys2Proof.Machine

/-- One step. -/
def step (s : State) : Host.Outcome State Fault Refusal :=
  match s.inputs with
  | [] => .next (tick s)
  | .regRead off :: rest => .next (hostRead off { s with inputs := rest })
  | .pass gap :: rest => .next (hostPass gap { s with inputs := rest })
  | .hwReset elapsed :: rest => .next (hardwareReset elapsed { s with inputs := rest })
  | .regWrite off w :: rest =>
    match writeKind s off w with
    | .register  => .next (regWrite off w { s with inputs := rest })
    | .overrun   => .next (raise .ovr { s with inputs := rest })
    | .illegal   => .next (raise .ill { s with inputs := rest })
    | .command i => exec i { s with inputs := rest }

/-- `s` with the command word of value `w` placed where the next step takes it: as the host's next move, a write
to `CMD` (rules R76, R98; assumption 14). A command is one 16-bit word; bits from `nbits` up are zero. -/
def State.withFetchWord (s : State) (nbits w : Nat) : State :=
  { s with inputs := .regWrite 0 (BitVec.ofNat 16 (w % 2 ^ nbits)) :: s.inputs }

end Sys2Proof.Machine
end

