-- ==== Sys2Proof/Safety.lean ====
section
/-! DEFINITION. The terms claims use: the shape of a trace (rule R132), time (rule R16), the events and the
duration of each operation (rules R123 to R155, R290), and the invariant of the block. -/

namespace Sys2Proof.Machine

/-! ## Traces -/

/-- Where a trace has left the line (rule R132). -/
inductive Phase where
  /-- The block has never driven the line. -/
  | untouched
  /-- After a `DriveLow`. -/
  | low
  /-- After a `Release`. -/
  | high
  deriving DecidableEq, Repr

/-- What one event does to the phase; none if the event may not stand there: `DriveLow` and `Release` alternate,
beginning with `DriveLow`; a `Sample` lies after a `Release` and before the next `DriveLow`; a wait is positive
(rules R16, R132). -/
def phaseStep (p : Phase) : LineEvent → Option Phase
  | .driveLow => if p = .low then none else some .low
  | .release  => if p = .low then some .high else none
  | .wait t   => if t = 0 then none else some p
  | .sample _ => if p = .high then some .high else none

/-- The phase after a trace, none if the trace breaks rule R132 somewhere. -/
def phaseAfter (tr : List LineEvent) : Option Phase :=
  tr.foldl (fun p e => p.bind (fun q => phaseStep q e)) (some .untouched)

/-- The time one event takes: only waits take time (rule R16). -/
def eventTime : LineEvent → Nat
  | .driveLow => 0
  | .release  => 0
  | .wait t   => t
  | .sample _ => 0

/-- The time at the end of a trace: the sum of its waits (rule R16). -/
def timeOf (tr : List LineEvent) : Nat := (tr.map eventTime).sum

/-! ## What each operation puts on the line -/

/-- The trace appended by WBIT for the bit `b` (rule R127). -/
def writeEvents (T : Timing) (b : Bool) : List LineEvent :=
  [.driveLow] ++ waitEvents (if b then T.w1L else T.w0L) ++ [.release] ++
    waitEvents (if b then T.w1H else T.w0H)

/-- The trace appended by RBIT whose sample is `v` (rule R130). -/
def readEvents (T : Timing) (v : Bool) : List LineEvent :=
  [.driveLow] ++ waitEvents T.rL ++ [.release] ++ waitEvents T.rS ++ [.sample v] ++ waitEvents T.rR

/-- The bits of a byte in the order they go over the line: bit 0 first (rule R62). -/
def byteBits (v : Byte) : List Bool := (List.range 8).map fun i => v.getLsbD i

/-- How many primitives an operation has; the CRC operations have none (rules R36, R123 to R155, R174). -/
def primCount : Instr → Nat
  | .lreset  => 7
  | .wbit _  => 4
  | .rbit    => 6
  | .sendb _ => 32
  | .recvb   => 48
  | .crcclr  => 0
  | .crcb _  => 0
  | .crct _  => 0

/-- The number of 1 bits of a byte, `k` of rule R290. -/
def onesOf (v : Byte) : Nat := ((byteBits v).filter id).length

/-- The duration of each operation, the formula column of rule R290. -/
def duration (T : Timing) : Instr → Nat
  | .lreset  => T.rstPre + T.rstL + T.pds + T.rstRec
  | .wbit b  => if b then T.w1L + T.w1H else T.w0L + T.w0H
  | .rbit    => T.rL + T.rS + T.rR
  | .sendb v => onesOf v * (T.w1L + T.w1H) + (8 - onesOf v) * (T.w0L + T.w0H)
  | .recvb   => 8 * (T.rL + T.rS + T.rR)
  | .crcclr  => 0
  | .crcb _  => 0
  | .crct _  => 0

/-- The level the next sample of a released line shows if it is taken after the trace `tr`: the environment's next
pending level, or where none is pending the free value (rule R66). -/
def State.levelAfter (s : State) (tr : List LineEvent) : Bool := ({ s with trace := tr } : State).released

/-! ## What a claim may leave out of sight -/

/-- The state without the flags no operation reads, and without what the host read of them (rules R31, R32). -/
def State.withoutFlags (s : State) : State :=
  { s with presence := false, rxbit := false, ill := false, ovr := false, sdm := false, reads := [] }

/-- An event without the level it saw. -/
def withoutLevel : LineEvent → LineEvent
  | .driveLow => .driveLow
  | .release  => .release
  | .wait t   => .wait t
  | .sample _ => .sample false

/-- The state without everything that comes from the environment's answers: the pending levels, the samples, the
results and what the host read of them (rules R36, R196). -/
def State.withoutLine (s : State) : State :=
  { s with
    answers := [], sampled := false, rxacc := 0, presence := false, rxbit := false, rxdata := 0, reads := [],
    trace := s.trace.map withoutLevel }

/-! ## The invariant -/

/-- How many primitives a slot of the operation has (rules R123, R127, R130, R151, R155). -/
def slotLength : LineOp → Nat
  | .lreset => 7
  | .wbit   => 4
  | .rbit   => 6
  | .sendb  => 4
  | .recvb  => 6

/-- The operand byte is one the operation's format admits (rule R92). -/
def argLegal : LineOp → Byte → Bool
  | .lreset, a => a == 0
  | .wbit,   a => a == 0 || a == 1
  | .rbit,   a => a == 0
  | .sendb,  _ => true
  | .recvb,  a => a == 0

/-- Where the primitive at index `step` finds the line, if the slot itself has decided it: low from the
`DriveLow` to the `Release`, high after it (rule R132). -/
def slotPhase : LineOp → Nat → Option Phase
  | .lreset, k => if k < 2 then none else if k < 4 then some .low else some .high
  | .wbit,   k => if k < 1 then none else if k < 3 then some .low else some .high
  | .rbit,   k => if k < 1 then none else if k < 3 then some .low else some .high
  | .sendb,  k => if k < 1 then none else if k < 3 then some .low else some .high
  | .recvb,  k => if k < 1 then none else if k < 3 then some .low else some .high

/-- Where the sequencer's position says the line is. -/
def seqPhase : Seq → Option Phase
  | .idle             => none
  | .running op _ k _ => slotPhase op k

/-- The sequencer's value is one the rules allow (rule R36). -/
def seqLegal : Seq → Bool
  | .idle             => true
  | .running op a k b => argLegal op a && decide (k < slotLength op) && decide (b < slotCount op)

/-- The phase of the trace agrees with the sequencer: the phase its slot has decided, else not low. -/
def phaseAgrees (want : Option Phase) (got : Option Phase) : Bool :=
  match want, got with
  | _,      none   => false
  | none,   some q => q != .low
  | some p, some q => q == p

/-- `txsh` holds the operand shifted by the slots already sent (rules R37, R151). -/
def txshAgrees (s : State) : Bool :=
  match s.seq with
  | .running .sendb a _ b => s.txsh == a >>> b
  | _                     => true

/-- The selected pin exists and the GPIO entities have their width (rules R8, R12). -/
def State.portsWf (s : State) : Prop :=
  s.cfg.pin < s.cfg.gpioW ∧ s.dirPort.length = s.cfg.gpioW ∧ s.outPort.length = s.cfg.gpioW

/-- The invariant of the block. The sequencer is legal (rule R36); the pin is driven exactly while the position in
the slot says so, and so is released while idle (rule R132); it never drives high (rule R40); the trace keeps
rule R132 and ends in the phase of the sequencer; `txsh` is the operand shifted. -/
def State.Inv (s : State) : Prop :=
  s.portsWf ∧ seqLegal s.seq = true ∧ s.drv = false ∧ s.dir = (seqPhase s.seq == some .low) ∧
    phaseAgrees (seqPhase s.seq) (phaseAfter s.trace) = true ∧ txshAgrees s = true

end Sys2Proof.Machine
end

