-- ==== Sys2Proof/Machine/HostSoftware.lean ====
section
/-! DEFINITION. The host software around the block, which is no state and no behaviour of the block (rules R6,
R200): the listing form of operations and the pseudo-operations (rules R100 to R102), and the source's
DeviceSession and SensorDriver (rules R201 to R231) as the sequences of operations they issue and the decisions
they take on the block's results. `step` uses none of it. -/

namespace Sys2Proof.Machine

/-! ## Listings and pseudo-operations -/

/-- The hexadecimal digit of a number below 16. -/
def hexDigit (n : Nat) : String := String.singleton ("0123456789ABCDEF".toList.getD n '0')

/-- A byte operand as a hexadecimal number (rule R100). -/
def hexByte (v : Byte) : String := "0x" ++ hexDigit (v.toNat / 16) ++ hexDigit (v.toNat % 16)

/-- The listing form of an operation (rule R100). -/
def listing : Instr → String
  | .lreset  => "LRESET"
  | .wbit b  => "WBIT " ++ (if b then "1" else "0")
  | .rbit    => "RBIT"
  | .sendb v => "SENDB " ++ hexByte v
  | .recvb   => "RECVB"
  | .crcclr  => "CRCCLR"
  | .crcb v  => "CRCB " ++ hexByte v
  | .crct v  => "CRCT " ++ hexByte v

/-- `BRESET`, the byte layer's reset, is LRESET (rules R101, R153). -/
def breset : Instr := .lreset

/-- `CRCRUN b0, ..., bn`: CRCCLR and then a CRCB for each byte (rule R101). -/
def crcRun (bs : List Byte) : List Instr := .crcclr :: bs.map .crcb

/-- What the host does for one line of a listing: it writes the command word and lets the operation run to
completion, the implied `WAIT` (rule R101). -/
def issueInputs (i : Instr) : List Input :=
  .regWrite 0 (encode i) :: List.replicate (primCount i) (.pass 0)

/-- The host's moves for a listing. -/
def listingInputs (is : List Instr) : List Input := is.flatMap issueInputs

/-! ## The command bytes of the bus (rule R102) -/

def cmdMatchRom : Byte := 0x55
def cmdSkipRom : Byte := 0xCC
def cmdReadScratch : Byte := 0xBE
def cmdConvertT : Byte := 0x44
def cmdConvertV : Byte := 0xB4
def cmdWriteScratch : Byte := 0x4E
def cmdRecallMem : Byte := 0xB8
def cmdCopyScratch : Byte := 0x48
def cmdSearchRom : Byte := 0xF0

/-! ## DeviceSession: data (rules R201 to R203) -/

/-- The host memory of a DeviceSession (rule R201). -/
structure Session where
  lastDiscrepancy       : Nat
  lastFamilyDiscrepancy : Nat
  lastDeviceFlag        : Bool
  romCode               : List Byte
  scratchpad            : List Byte
  deriving DecidableEq, Repr

/-- The cleared search state; the two buffers stay (rules R201, R202). It is `resetSearch()` (rule R209). -/
def resetSearch (s : Session) : Session :=
  { s with lastDiscrepancy := 0, lastFamilyDiscrepancy := 0, lastDeviceFlag := false }

/-- A ROM code is valid when it has 8 bytes whose CRC8 is zero (rule R203). -/
def romValid (code : List Byte) : Bool := code.length == 8 && crc8 code == 0

/-- A scratchpad read is valid when it has 9 bytes whose CRC8 is zero (rule R203). -/
def scratchValid (pad : List Byte) : Bool := pad.length == 9 && crc8 pad == 0

/-- Position `p`, 1 to 64, of a ROM code: bit `(p-1) mod 8` of byte `(p-1) div 8` (rule R206). -/
def romBit (code : List Byte) (p : Nat) : Bool := (code.getD ((p - 1) / 8) 0).getLsbD ((p - 1) % 8)

/-- A byte with bit `i` replaced. -/
def setByteBit (v : Byte) (i : Nat) (b : Bool) : Byte :=
  if b then v ||| BitVec.twoPow 8 i else v &&& ~~~(BitVec.twoPow 8 i)

/-- Store the chosen bit "into `romCode` at the correct byte/bit position" (rule R206). -/
def setRomBit (code : List Byte) (p : Nat) (b : Bool) : List Byte :=
  code.set ((p - 1) / 8) (setByteBit (code.getD ((p - 1) / 8) 0) ((p - 1) % 8) b)

/-! ## DeviceSession: search (rules R204 to R211) -/

/-- The direction at position `p` after the two discovery bits `a`, then `b`; none for the inconsistent pair
(1,1) (rule R206). For a pair with one 1 it is the first bit read (the spec's G5). -/
def direction (lastDiscrepancy : Nat) (rom : List Byte) (p : Nat) (a b : Bool) : Option Bool :=
  match a, b with
  | true,  true  => none
  | false, false =>
    some (if p = lastDiscrepancy then true else if lastDiscrepancy < p then false else romBit rom p)
  | true,  false => some true
  | false, true  => some false

/-- What one pass carries from position to position. -/
structure SearchPass where
  session  : Session
  /-- The last branch resolved toward 0 in this pass; 0 while there is none (rule R207). -/
  lastZero : Nat
  /-- The directions written so far, position 1 first. -/
  sent     : List Bool
  deriving DecidableEq, Repr

/-- Take the direction `d` at position `p`, where `branch` says both discovery bits were 0 (rule R206). -/
def takeDirection (branch : Bool) (p : Nat) (d : Bool) (ps : SearchPass) : SearchPass :=
  let zeroBranch := branch && !d
  { session :=
      { ps.session with
        romCode := setRomBit ps.session.romCode p d
        lastFamilyDiscrepancy := if zeroBranch && decide (p ≤ 8) then p else ps.session.lastFamilyDiscrepancy }
    lastZero := if zeroBranch then p else ps.lastZero
    sent     := ps.sent ++ [d] }

/-- The last `n` of the 64 positions; `respond` gives the two discovery bits the bus shows after the directions
already written. The answer says whether the pass reached its end (rule R206). -/
def searchBits (respond : List Bool → Bool × Bool) : Nat → SearchPass → SearchPass × Bool
  | 0,     ps => (ps, true)
  | n + 1, ps =>
    let ab := respond ps.sent
    match direction ps.session.lastDiscrepancy ps.session.romCode (64 - n) ab.1 ab.2 with
    | none   => (ps, false)
    | some d => searchBits respond n (takeDirection (!ab.1 && !ab.2) (64 - n) d ps)

/-- `search() -> found` (rules R204 to R207): `present` is the presence the reset gave. -/
def search (present : Bool) (respond : List Bool → Bool × Bool) (s : Session) : Session × Bool :=
  if !present || s.lastDeviceFlag then (resetSearch s, false)
  else
    match searchBits respond 64 { session := s, lastZero := 0, sent := [] } with
    | (ps, false) => (resetSearch ps.session, false)
    | (ps, true)  =>
      if romValid ps.session.romCode then
        ({ ps.session with lastDiscrepancy := ps.lastZero, lastDeviceFlag := ps.lastZero == 0 }, true)
      else (resetSearch ps.session, false)

/-- The operations of one position: read, read, write the direction (rule R208). -/
def searchPosition (d : Bool) : List Instr := [.rbit, .rbit, .wbit d]

/-- The operations of one complete pass that writes the directions `ds` and finds `rom` (rule R208). -/
def searchCommands (ds : List Bool) (rom : List Byte) : List Instr :=
  [.lreset, .sendb cmdSearchRom] ++ ds.flatMap searchPosition ++ crcRun rom

/-! ## DeviceSession: addressing and the scratchpad (rules R210 to R215, R221) -/

/-- Whom a command addresses (rule R221). -/
inductive Target where
  | device (address : List Byte)
  | broadcast
  deriving DecidableEq, Repr

/-- `matchRom(address)`: the match command and the address bytes, byte 0 first (rule R210). -/
def matchRom (address : List Byte) : List Instr := .sendb cmdMatchRom :: address.map .sendb

/-- Bus reset, then addressing of the target (rules R210, R212, R221). DESIGN CHOICE: this list, and each list made
with it, holds the whole transaction whatever the presence the reset gives; whether the bytes after an unanswered
reset are still sent, rules R212 and R213 do not say (assumption 22). -/
def resetAndAddress : Target → List Instr
  | .device address => .lreset :: matchRom address
  | .broadcast      => [.lreset, .sendb cmdSkipRom]

/-- A read may be broadcast only in single-device mode (rules R158, R221). -/
def readAllowed (sdm : Bool) : Target → Bool
  | .device _  => true
  | .broadcast => sdm

/-- `writeScratch`, the writing part (rule R212), in full whatever the presence (assumption 22, DESIGN CHOICE). -/
def writeScratchCommands (t : Target) (page : Option Byte) (payload : List Byte) : List Instr :=
  resetAndAddress t ++ [.sendb cmdWriteScratch] ++ page.toList.map .sendb ++ payload.map .sendb

/-- Reading the nine bytes of a scratchpad, of a page where one is selected (rules R212, R224, R228). -/
def readScratchCommands (t : Target) (page : Option Byte) : List Instr :=
  resetAndAddress t ++ [.sendb cmdReadScratch] ++ page.toList.map .sendb ++ List.replicate 9 .recvb

/-- `copyScratch` (rule R213), in full whatever the presence (assumption 22, DESIGN CHOICE). -/
def copyScratchCommands (t : Target) (page : Byte) : List Instr :=
  resetAndAddress t ++ [.sendb cmdCopyScratch, .sendb page]

/-- The status values and faults of the software layers (rules R214, R246). -/
inductive SoftwareStatus where
  | success
  | resetFault
  | searchAbort
  | crcFault
  | dataMismatchFault
  deriving DecidableEq, Repr

/-- The status of `copyScratch` (rule R213), and of `writeScratch` without verification (rule R212). -/
def presenceStatus (present : Bool) : SoftwareStatus := if present then .success else .resetFault

/-- The status of a verified `writeScratch` whose first reset found a device: the nine bytes read back, the byte of
them compared, and the byte written (rules R212, R215). Which byte is compared, and whether a second reset that finds
no device also gives reset-fault, the spec does not say (its N17). DESIGN CHOICE: the compared byte is an argument,
and the presence of the second reset is not looked at, so the bytes read back decide (assumption 20). -/
def verifyStatus (pad : List Byte) (compared written : Byte) : SoftwareStatus :=
  if !scratchValid pad then .crcFault else if compared = written then .success else .dataMismatchFault

/-! ## SensorDriver (rules R220 to R231) -/

/-- `convertT` (rule R223). -/
def convertTCommands (t : Target) : List Instr := resetAndAddress t ++ [.sendb cmdConvertT]

/-- `convertV` (rule R227). -/
def convertVCommands (t : Target) : List Instr := resetAndAddress t ++ [.sendb cmdConvertV]

/-- `recallMemory`; the page byte is implied, not listed, by the source (rule R227). -/
def recallMemoryCommands (t : Target) (page : Option Byte) : List Instr :=
  resetAndAddress t ++ [.sendb cmdRecallMem] ++ page.toList.map .sendb

/-- A little-endian 16-bit value of a scratchpad, its low byte at index `i` (rules R225, R229). -/
def scratchWord (pad : List Byte) (i : Nat) : Word := pad.getD (i + 1) 0 ++ pad.getD i 0

/-- `getTempRaw`: bytes 0 and 1 as a signed value, biased by 880 (rule R225). -/
def tempRaw (pad : List Byte) : Int := (scratchWord pad 0).toInt + 880

/-- `getTempFloat` of the biased formula, in degrees (rule R226). The source's value is a floating-point one of
unstated format and rounding. DESIGN CHOICE: the exact rational (assumption 23). -/
def tempDegrees (pad : List Byte) : ℚ := tempRaw pad / 16 - 55

/-- The other formula of the source, in tenths of a degree, without bias (rule R231). The source does not say whether
it truncates, nor whether the 16-bit value is signed in it. DESIGN CHOICE: the exact rational of the signed value
(assumption 21). -/
def tempTenthsUnbiased (pad : List Byte) : ℚ := (scratchWord pad 0).toInt * 10 / 16

/-- `getVoltRaw`: bytes 3 and 4 (rule R229). -/
def voltRaw (pad : List Byte) : Nat := (scratchWord pad 3).toNat

/-- `getVoltFloat` (rule R230). The source's value is a floating-point one (rule R42) of unstated format and rounding.
DESIGN CHOICE: the exact rational (assumption 23). -/
def voltVolts (pad : List Byte) : ℚ := voltRaw pad / 100

end Sys2Proof.Machine
end

