-- ==== Sys2Proof/Certificates/Slice0/Obligations.lean ====
section
/-! DEFINITION. The statements for the provers. An idle block is one whose `BUSY` is 0; `s.Inv` is the invariant
of Safety.lean. A next state written out as `{ s with … }` says what the instruction changes and, by naming no
other field, its frame. -/

open Sys2Proof Sys2Proof.Machine

/-! ## Encoding (30_encoding.md) -/

/-- Every operation comes back from its encoding, with every operand (rules R92 to R95). -/
def Obligations.DecodeOfEncode : Prop :=
  ∀ i : Instr, i.wellFormed = true → decode (encode i) = .operation i

/-- Every legal word is the encoding of the operation it decodes to: no legal word has two spellings. -/
def Obligations.EncodeOfDecode : Prop :=
  ∀ (w : Word) (i : Instr), decode w = .operation i → encode i = w

/-- The decoder follows the opcode map of rule R94, a choice of the spec (its D4): a word that decodes selects
the row of its operation; a word that selects a row decodes to an operation of that row; a word that selects
none is illegal. -/
def Obligations.DecodeFollowsOpcodeMap : Prop :=
  (∀ (w : Word) (i : Instr), decode w = .operation i → i.row ∈ opcodeRows ∧ i.row.selects w = true) ∧
  (∀ (w : Word) (r : OpcodeRow), r ∈ opcodeRows → r.selects w = true →
    ∃ i, decode w = .operation i ∧ i.row = r) ∧
  (∀ w : Word, (∀ r ∈ opcodeRows, r.selects w = false) → ∃ why, decode w = .illegal why)

/-- No word selects two rows of the opcode map (the last sentence of rule R94, which the spec derives). -/
def Obligations.OpcodeRowsDisjoint : Prop :=
  ∀ (w : Word) (r₁ r₂ : OpcodeRow), r₁ ∈ opcodeRows → r₂ ∈ opcodeRows →
    r₁.selects w = true → r₂.selects w = true → r₁ = r₂

/-- Which words are illegal (rule R96, the spec's D5 and D29): an unassigned `op` whatever the operand, an operand
where the format has none, and a bit operand above bit 0. -/
def Obligations.IllegalWordsRefused : Prop :=
  (∀ w : Word, opField w = 0x00 ∨ opField w = 0x06 ∨ opField w = 0x07 ∨ 0x0B ≤ (opField w).toNat →
    decode w = .illegal .unassignedOp) ∧
  (∀ w : Word, opField w = 0x01 ∨ opField w = 0x03 ∨ opField w = 0x05 ∨ opField w = 0x08 → argField w ≠ 0 →
    decode w = .illegal .mustBeZeroSet) ∧
  (∀ w : Word, opField w = 0x02 → 2 ≤ (argField w).toNat → decode w = .illegal .mustBeZeroSet)

/-- Words written out from the opcode map decode to the operations they stand for (rules R92 to R94). -/
def Obligations.SpecWordsDecode : Prop :=
  decode 0b0000000100000000 = .operation .lreset ∧
  decode 0b0000001000000000 = .operation (.wbit false) ∧
  decode 0b0000001000000001 = .operation (.wbit true) ∧
  decode 0b0000001100000000 = .operation .rbit ∧
  decode 0b0000010010100101 = .operation (.sendb 0xA5) ∧
  decode 0b0000010100000000 = .operation .recvb ∧
  decode 0b0000100000000000 = .operation .crcclr ∧
  decode 0b0000100111111111 = .operation (.crcb 0xFF) ∧
  decode 0b0000101001011110 = .operation (.crct 0x5E)

/-! ## Issue (30_encoding.md rule R98, 60_exceptions.md) -/

/-- A host write of a legal word to `CMD` is `exec` of the operation it stands for, on the state with that write
taken off; and placing a word with `withFetchWord` makes the next step run it. -/
def Obligations.StepRunsDecodedCommand : Prop :=
  (∀ (s : State) (w : Word) (rest : List Input) (i : Instr),
    s.inputs = .regWrite 0 w :: rest → decode w = .operation i → step s = exec i { s with inputs := rest }) ∧
  (∀ (s : State) (i : Instr), step (s.withFetchWord 16 (encode i).toNat) = exec i s)

/-- Issue while idle (rule R98): every operation answers a next state; a line operation makes the sequencer `Running(op, operand, 0, 0)` and `BUSY` 1; a
CRC operation leaves the sequencer idle. -/
def Obligations.IdleBlockAcceptsCommand : Prop :=
  ∀ s : State, s.busy = false →
    (exec .lreset s = .next { s with seq := .running .lreset 0 0 0 }) ∧
    (∀ b, exec (.wbit b) s = .next { s with seq := .running .wbit (if b then 1 else 0) 0 0 }) ∧
    (exec .rbit s = .next { s with seq := .running .rbit 0 0 0 }) ∧
    (∀ v, exec (.sendb v) s = .next { s with seq := .running .sendb v 0 0, txsh := v }) ∧
    (exec .recvb s = .next { s with seq := .running .recvb 0 0 0 }) ∧
    (∀ i, ∃ t, exec i s = .next t ∧
      (t.busy = true ↔ i ≠ .crcclr ∧ (∀ v, i ≠ .crcb v) ∧ (∀ v, i ≠ .crct v)))

/-- A command written while `BUSY` is 1 sets `OVR` and changes nothing else, for every word, decoded or not; the
flag then stays until a 1 is written to its bit or hardware reset (rule R242, the spec's D6). -/
def Obligations.BusyBlockDropsCommand : Prop :=
  (∀ (s : State) (w : Word) (rest : List Input), s.busy = true → s.inputs = .regWrite 0 w :: rest →
    step s = .next { s with inputs := rest, ovr := true }) ∧
  (∀ (s : State) (i : Instr), s.busy = true → exec i s = .next { s with ovr := true }) ∧
  (∀ s t : State, step s = .next t → s.ovr = true → t.ovr = false →
    (∃ e rest, s.inputs = .hwReset e :: rest) ∨ ∃ w rest, s.inputs = .regWrite 1 w :: rest ∧ w.getLsbD 4 = true)

/-- An illegal word written while `BUSY` is 0 sets `ILL` and changes nothing else; the flag then stays until a 1
is written to its bit or hardware reset (rule R241, the spec's D5). -/
def Obligations.IllegalCommandSetsIll : Prop :=
  (∀ (s : State) (w : Word) (rest : List Input) (why : IllegalWord), s.busy = false →
    s.inputs = .regWrite 0 w :: rest → decode w = .illegal why →
    step s = .next { s with inputs := rest, ill := true }) ∧
  (∀ s t : State, step s = .next t → s.ill = true → t.ill = false →
    (∃ e rest, s.inputs = .hwReset e :: rest) ∨ ∃ w rest, s.inputs = .regWrite 1 w :: rest ∧ w.getLsbD 3 = true)

/-! ## Line and byte operations (40_line_ops.md, 41_byte_ops.md) -/

/-- LRESET from issue to completion (rule R123): accepted, and after its seven primitives the trace has grown by
the seven windows, `PRESENCE` is 1 iff the one sample was 0, the block is idle, and nothing else has changed
but what the sample used up. Its word is 0x0100. -/
def Obligations.LresetRunsToCompletion : Prop :=
  encode .lreset = 0x0100 ∧ decode 0x0100 = .operation .lreset ∧
  ∀ s : State, s.Inv → s.busy = false →
    let T := s.cfg.timing
    let p := s.levelAfter
      (s.trace ++ (waitEvents T.rstPre ++ [.driveLow] ++ waitEvents T.rstL ++ [.release] ++ waitEvents T.pds))
    let t : State := { s with seq := .running .lreset 0 0 0 }
    exec .lreset s = .next t ∧
    ticks 7 t =
      { s with presence := !p, sampled := p, answers := s.answers.tail, draws := s.draws + 1,
               trace := s.trace ++
                 (waitEvents T.rstPre ++ [.driveLow] ++ waitEvents T.rstL ++ [.release] ++ waitEvents T.pds ++
                   [.sample p] ++ waitEvents T.rstRec) }

/-- WBIT from issue to completion (rule R127): low for `T_W1L` or `T_W0L`, released for `T_W1H` or `T_W0H`, and
nothing but the trace has changed. Its word is 0x0200 | b. -/
def Obligations.WbitRunsToCompletion : Prop :=
  (∀ b : Bool, encode (.wbit b) = 0x0200 ||| (BitVec.ofBool b).setWidth 16 ∧
    decode (encode (.wbit b)) = .operation (.wbit b)) ∧
  ∀ (b : Bool) (s : State), s.Inv → s.busy = false →
    let T := s.cfg.timing
    let t : State := { s with seq := .running .wbit (if b then 1 else 0) 0 0 }
    exec (.wbit b) s = .next t ∧
    ticks 4 t =
      { s with trace := s.trace ++
                 ([.driveLow] ++ waitEvents (if b then T.w1L else T.w0L) ++ [.release] ++
                   waitEvents (if b then T.w1H else T.w0H)) }

/-- RBIT from issue to completion (rule R130): `RXBIT` is the level sampled, not inverted. Its word is 0x0300. -/
def Obligations.RbitRunsToCompletion : Prop :=
  encode .rbit = 0x0300 ∧ decode 0x0300 = .operation .rbit ∧
  ∀ s : State, s.Inv → s.busy = false →
    let T := s.cfg.timing
    let v := s.levelAfter (s.trace ++ ([.driveLow] ++ waitEvents T.rL ++ [.release] ++ waitEvents T.rS))
    let t : State := { s with seq := .running .rbit 0 0 0 }
    exec .rbit s = .next t ∧
    ticks 6 t =
      { s with rxbit := v, sampled := v, answers := s.answers.tail, draws := s.draws + 1,
               trace := s.trace ++
                 ([.driveLow] ++ waitEvents T.rL ++ [.release] ++ waitEvents T.rS ++ [.sample v] ++
                   waitEvents T.rR) }

/-- SENDB from issue to completion (rule R151): 32 primitives, a write slot for bit 0, then bit 1, up to bit 7;
`txsh` is shifted out, and nothing else but the trace has changed. Its word is 0x0400 | v. -/
def Obligations.SendbRunsToCompletion : Prop :=
  (∀ v : Byte, encode (.sendb v) = 0x0400 ||| v.setWidth 16 ∧
    decode (encode (.sendb v)) = .operation (.sendb v)) ∧
  ∀ (v : Byte) (s : State), s.Inv → s.busy = false →
    let t : State := { s with seq := .running .sendb v 0 0, txsh := v }
    exec (.sendb v) s = .next t ∧
    ticks 32 t =
      { s with txsh := 0,
               trace := s.trace ++
                 [v.getLsbD 0, v.getLsbD 1, v.getLsbD 2, v.getLsbD 3, v.getLsbD 4, v.getLsbD 5, v.getLsbD 6,
                   v.getLsbD 7].flatMap (writeEvents s.cfg.timing) }

/-- RECVB from issue to completion (rule R155): 48 primitives, eight read slots; with each sample `v` the
accumulator is shifted right by one, and its top bit set if `v` is 1; `RXDATA` is the accumulator at the end. The
samples `vs` are the environment's pending levels as far as there are any, and free after them, and nothing
else has changed but what they used up. Its word is 0x0500. -/
def Obligations.RecvbRunsToCompletion : Prop :=
  encode .recvb = 0x0500 ∧ decode 0x0500 = .operation .recvb ∧
  ∀ s : State, s.Inv → s.busy = false →
    let t : State := { s with seq := .running .recvb 0 0 0 }
    exec .recvb s = .next t ∧
    ∃ vs : List Bool, vs.length = 8 ∧ List.IsPrefix (s.answers.take 8) vs ∧
      let d := vs.foldl (fun (acc : Byte) v => if v = true then (acc >>> 1) ||| 0x80 else acc >>> 1) s.rxacc
      ticks 48 t =
        { s with rxdata := d, rxacc := d, sampled := vs.getD 7 false, answers := s.answers.drop 8,
                 draws := s.draws + 8, trace := s.trace ++ vs.flatMap (readEvents s.cfg.timing) }

/-- The shift accumulator puts the first bit received into bit 0 (rule R156, derived by the spec): eight shifts
of any starting value leave exactly the eight bits shifted in. -/
def Obligations.EightShiftsHoldTheByte : Prop :=
  ∀ (acc : Byte) (vs : List Bool), vs.length = 8 →
    ∀ i < 8, (vs.foldl rxShift acc).getLsbD i = vs.getD i false

/-- The order of sending and of receiving agree (rules R62 and R154): the byte whose bits are sent in slot order
is the byte that receiving those bits in slot order assembles. -/
def Obligations.SendAndReceiveOrderAgree : Prop :=
  ∀ (acc v : Byte), (byteBits v).foldl rxShift acc = v

/-- A byte operation is eight bit operations (rules R152 (b) and R157 (d), derived by the spec): with the host
waiting after each, SENDB and the eight WBITs leave the same trace, and so do RECVB and eight RBITs. -/
def Obligations.ByteOperationIsEightBitOperations : Prop :=
  (∀ (v : Byte) (s : State), s.Inv → s.busy = false →
    ∃ t u : State,
      Host.Core.run Sys2Proof.core 33 { s with inputs := issueInputs (.sendb v) } = .next t ∧
      Host.Core.run Sys2Proof.core 40 { s with inputs := listingInputs ((byteBits v).map .wbit) } = .next u ∧
      t.trace = u.trace ∧ t.seq = .idle ∧ u.seq = .idle ∧ t.inputs = [] ∧ u.inputs = []) ∧
  (∀ s : State, s.Inv → s.busy = false →
    ∃ t u : State,
      Host.Core.run Sys2Proof.core 49 { s with inputs := issueInputs .recvb } = .next t ∧
      Host.Core.run Sys2Proof.core 56 { s with inputs := listingInputs (List.replicate 8 .rbit) } = .next u ∧
      t.trace = u.trace ∧ t.seq = .idle ∧ u.seq = .idle ∧ t.inputs = [] ∧ u.inputs = [] ∧
      t.answers = u.answers)

/-! ## CRC-8 (42_crc8.md) -/

/-- CRCCLR: `CRC <- 0x00`, nothing else (rule R171). Its word is 0x0800. -/
def Obligations.CrcclrResult : Prop :=
  encode .crcclr = 0x0800 ∧ decode 0x0800 = .operation .crcclr ∧
  ∀ s : State, s.busy = false → exec .crcclr s = .next { s with crc := 0x00 }

/-- CRCB: the byte is folded in, then eight conditional shifts with 0x8C, written out (rule R172, its first
listing; that the second agrees the spec derives, and CrcListingsAgree states). -/
def Obligations.CrcbResult : Prop :=
  ∀ (v : Byte) (s : State), s.busy = false →
    let f : Byte → Byte := fun c => if c.getLsbD 0 = true then (c >>> 1) ^^^ 0x8C else c >>> 1
    exec (.crcb v) s = .next { s with crc := f (f (f (f (f (f (f (f (s.crc ^^^ v)))))))) }

/-- CRCT: one read of the table at `CRC ^ v` (rule R173, the formula derived by the spec). -/
def Obligations.CrctResult : Prop :=
  ∀ (v : Byte) (s : State), s.busy = false →
    exec (.crct v) s = .next { s with crc := crcTable.getD (s.crc ^^^ v).toNat 0 }

/-- The two listings of rule R172 compute the same value for all 65536 pairs (its derived sentence). -/
def Obligations.CrcListingsAgree : Prop :=
  ∀ c v : Byte, crcStep c v = crcSerial c v

/-- The printed table is the step function from zero, all 256 entries of it (rule R176, derived by the spec). -/
def Obligations.CrcTableIsStepFromZero : Prop :=
  crcTable.length = 256 ∧ ∀ i : Byte, crcTable.getD i.toNat 0 = crcStep 0 i

/-- CRCB and CRCT leave the same state, from every state and for every byte (rule R175). -/
def Obligations.CrcFormsAgree : Prop :=
  ∀ (v : Byte) (s : State), exec (.crcb v) s = exec (.crct v) s

/-- The table is a permutation of the 256 bytes (rule R176, its last paragraph). -/
def Obligations.CrcTableIsPermutation : Prop :=
  Function.Bijective crcLookup

/-- The step is linear over exclusive-or, and depends on `c ^ v` only (rule R180, derived by the spec). -/
def Obligations.CrcStepLinear : Prop :=
  (∀ c₁ c₂ v₁ v₂ : Byte, crcStep (c₁ ^^^ c₂) (v₁ ^^^ v₂) = crcStep c₁ v₁ ^^^ crcStep c₂ v₂) ∧
  crcStep 0 0 = 0 ∧ (∀ c v : Byte, crcStep c v = crcStep 0 (c ^^^ v))

/-- The zero residue (rule R178, derived by the spec): a sequence with its own CRC8 appended has CRC8 zero, and
no other last byte does that. -/
def Obligations.CrcZeroResidue : Prop :=
  ∀ (bs : List Byte) (x : Byte), crc8 (bs ++ [x]) = 0 ↔ x = crc8 bs

/-- The values of rule R181, derived by the spec: any number of 0x00 bytes gives 0x00, eight 0xFF give 0xC9, nine
give 0x63. -/
def Obligations.CrcOfConstantBytes : Prop :=
  (∀ n : Nat, crc8 (List.replicate n 0x00) = 0x00) ∧
  crc8 (List.replicate 8 0xFF) = 0xC9 ∧ crc8 (List.replicate 9 0xFF) = 0x63

/-- `CRCRUN` on an idle block leaves the CRC8 of the bytes in `CRC`, and changes nothing else (rules R101 and
R177, derived by the spec). -/
def Obligations.CrcRunComputesCrc8 : Prop :=
  ∀ (bs : List Byte) (s : State), s.busy = false →
    Host.Core.run Sys2Proof.core (bs.length + 1) { s with inputs := listingInputs (crcRun bs) } =
      .next { s with inputs := [], crc := crc8 bs }

/-! ## The sequencer (10_state.md rule R36) -/

/-- Every operation terminates after a fixed number of primitives and in a fixed time, whatever the line does
(rule R36): it is accepted, `BUSY` stays 1 until its last primitive, and falls with it; the time it takes is the
formula of rule R290, which the spec derives; the CRC operations take none. -/
def Obligations.OperationTerminates : Prop :=
  ∀ (i : Instr) (s : State), s.busy = false →
    ∃ t : State, exec i s = .next t ∧ (∀ m < primCount i, (ticks m t).busy = true) ∧
      (ticks (primCount i) t).busy = false ∧
      timeOf (ticks (primCount i) t).trace = timeOf s.trace + duration s.cfg.timing i

/-- A step in which the host makes no access moves a running operation by one primitive, with or without a `pass`
pending; on an idle block a gap only lets time pass (rules R36 and R282; that the gap is a wait of the trace is
the model's reading, assumption 10). -/
def Obligations.PassAdvancesOnePrimitive : Prop :=
  (∀ s : State, s.inputs = [] → step s = .next (tick s)) ∧
  (∀ (s : State) (gap : Nat) (rest : List Input), s.inputs = .pass gap :: rest → s.busy = true →
    step s = .next (tick { s with inputs := rest })) ∧
  (∀ (s : State) (gap : Nat) (rest : List Input), s.inputs = .pass gap :: rest → s.busy = false →
    step s = .next { s with inputs := rest, trace := s.trace ++ waitEvents gap })

/-- The sequencer advances by exactly one primitive, in list order, then to the next slot, then to idle (rule
R36): where it is after one move depends on where it was and on nothing else. -/
def Obligations.SequencerAdvancesInOrder : Prop :=
  ∀ (s : State) (op : LineOp) (arg : Byte) (k b : Nat), s.seq = .running op arg k b →
    (tick s).seq =
      if k + 1 < slotLength op then .running op arg (k + 1) b
      else if b + 1 < slotCount op then .running op arg 0 (b + 1)
      else .idle

/-- The results are written only at completion, each by one operation (rules R23, R29, R30, the spec's D12): a
move of the block that leaves it busy changes none of them, and one that completes an operation changes only
that operation's own. -/
def Obligations.ResultsWrittenOnlyAtCompletion : Prop :=
  ∀ s : State,
    ((tick s).busy = true →
      (tick s).presence = s.presence ∧ (tick s).rxbit = s.rxbit ∧ (tick s).rxdata = s.rxdata) ∧
    ((tick s).presence ≠ s.presence → ∃ arg k b, s.seq = .running .lreset arg k b) ∧
    ((tick s).rxbit ≠ s.rxbit → ∃ arg k b, s.seq = .running .rbit arg k b) ∧
    ((tick s).rxdata ≠ s.rxdata → ∃ arg k b, s.seq = .running .recvb arg k b)

/-! ## Whole-machine rules -/

/-- Nothing stops the block: every step answers a next state (rules R240 and R247). -/
def Obligations.StepNeverStops : Prop :=
  ∀ s : State, ∃ t : State, step s = .next t

/-- The invariant holds in the launch state. -/
def Obligations.InvariantHoldsAtReset : Prop := State.reset.Inv

/-- Every step keeps the invariant: the sequencer stays legal, the pin is driven exactly in the low part of a slot
and is released while idle, it never drives high, and in the trace `DriveLow` and `Release` alternate with
every `Sample` after a `Release` (rules R40 and R132, derived by the spec). -/
def Obligations.StepKeepsInvariant : Prop :=
  ∀ s t : State, s.Inv → step s = .next t → t.Inv

/-- No step changes the build configuration, the timing profile in it, and `CONFIG` shows the profile (rule R10, the
visible bit by the spec's D17). -/
def Obligations.ConfigurationNeverChanges : Prop :=
  (∀ s t : State, step s = .next t → t.cfg = s.cfg) ∧
  (∀ s : State, regRead s 5 = if s.cfg.profile = .fast then 1 else 0)

/-- No step changes a bit of `DIR` or `OUT` that is not the selected one, and none ever sets `OUT[PIN]` (rules R15
and R40). -/
def Obligations.OtherGpioBitsUntouched : Prop :=
  ∀ s t : State, step s = .next t →
    (∀ j, j ≠ s.cfg.pin → t.dirPort.getD j false = s.dirPort.getD j false ∧
      t.outPort.getD j false = s.outPort.getD j false) ∧
    (s.drv = false → t.drv = false)

/-- The trace is a record: a step only appends to it (rules R16 and R271). -/
def Obligations.TraceOnlyGrows : Prop :=
  ∀ s t : State, step s = .next t → ∃ evs : List LineEvent, t.trace = s.trace ++ evs

/-- Only CRCCLR, CRCB, CRCT and hardware reset write `CRC` (rule R24): a step that changes it is one of them. -/
def Obligations.OnlyCrcOperationsWriteCrc : Prop :=
  ∀ s t : State, step s = .next t → t.crc ≠ s.crc →
    (∃ e rest, s.inputs = .hwReset e :: rest) ∨
    (∃ w rest i, s.inputs = .regWrite 0 w :: rest ∧ s.busy = false ∧ decode w = .operation i ∧
      (i = .crcclr ∨ (∃ v, i = .crcb v) ∨ (∃ v, i = .crct v)))

/-- Only the completion of LRESET, RBIT and RECVB, and hardware reset, write `PRESENCE`, `RXBIT` and `RXDATA`
(rules R23, R29, R30, the spec's D12). -/
def Obligations.OnlyCompletionsWriteResults : Prop :=
  ∀ s t : State, step s = .next t → (∀ e rest, s.inputs ≠ .hwReset e :: rest) →
    (t.presence ≠ s.presence → t.busy = false ∧ ∃ arg k b, s.seq = .running .lreset arg k b) ∧
    (t.rxbit ≠ s.rxbit → t.busy = false ∧ ∃ arg k b, s.seq = .running .rbit arg k b) ∧
    (t.rxdata ≠ s.rxdata → t.busy = false ∧ ∃ arg k b, s.seq = .running .recvb arg k b)

/-- What sets and clears the sticky flags and `SDM` (rules R27, R32, R241, R242): `ILL` is set only by an illegal
word while idle and `OVR` only by a command while busy; each is cleared only by a 1 written to its bit of
`STATUS` or by hardware reset; `SDM` changes only by a write to `CTRL` or hardware reset. -/
def Obligations.OnlyTheseEventsMoveStickyFlags : Prop :=
  ∀ s t : State, step s = .next t →
    (s.ill = false → t.ill = true →
      ∃ w rest why, s.inputs = .regWrite 0 w :: rest ∧ s.busy = false ∧ decode w = .illegal why) ∧
    (s.ovr = false → t.ovr = true → ∃ w rest, s.inputs = .regWrite 0 w :: rest ∧ s.busy = true) ∧
    (s.ill = true → t.ill = false →
      (∃ e rest, s.inputs = .hwReset e :: rest) ∨
      ∃ w rest, s.inputs = .regWrite 1 w :: rest ∧ w.getLsbD 3 = true) ∧
    (s.ovr = true → t.ovr = false →
      (∃ e rest, s.inputs = .hwReset e :: rest) ∨
      ∃ w rest, s.inputs = .regWrite 1 w :: rest ∧ w.getLsbD 4 = true) ∧
    (t.sdm ≠ s.sdm →
      (∃ e rest, s.inputs = .hwReset e :: rest) ∨ ∃ w rest, s.inputs = .regWrite 4 w :: rest)

/-- A host access never disturbs a running operation (rules R191 and R242): the sequencer, the pin, the trace, the
shift registers, the environment and the results are as before. -/
def Obligations.HostAccessDisturbsNothing : Prop :=
  ∀ (s : State) (a : Input) (rest : List Input), s.busy = true → s.inputs = a :: rest →
    ((∃ off, a = .regRead off) ∨ (∃ off w, a = .regWrite off w)) →
    ∃ t : State, step s = .next t ∧
      t = { s with inputs := rest, ill := t.ill, ovr := t.ovr, sdm := t.sdm, reads := t.reads }

/-- No operation reads a flag (rules R31 and R158): two states that differ only in `PRESENCE`, `RXBIT`, `ILL`,
`OVR`, `SDM` and in what the host has read make the same step but for these. -/
def Obligations.FlagsDoNotInfluence : Prop :=
  ∀ s s' : State, s.withoutFlags = s'.withoutFlags →
    ∃ t t' : State, step s = .next t ∧ step s' = .next t' ∧ t.withoutFlags = t'.withoutFlags

/-- The line never decides what the block does (rules R36 and R196): two states that differ only in what the
environment answers and in what came of its answers make the same step but for these, so the primitives, their
order and their times are the same. -/
def Obligations.LineDoesNotInfluenceControl : Prop :=
  ∀ s s' : State, s.withoutLine = s'.withoutLine →
    ∃ t t' : State, step s = .next t ∧ step s' = .next t' ∧ t.withoutLine = t'.withoutLine

/-! ## Registers and reset (43_register_ops.md, 70_reset_and_hazards.md) -/

/-- What the host reads at each offset, bit by bit, with no side effect, busy or not; and that while `BUSY` is 1
the result fields still hold the results of earlier operations (rule R191). -/
def Obligations.RegisterReadValues : Prop :=
  (∀ s : State, (tick s).busy = true →
    (tick s).presence = s.presence ∧ (tick s).rxbit = s.rxbit ∧ (tick s).rxdata = s.rxdata) ∧
  ∀ (s : State) (off : Fin 8) (rest : List Input), s.inputs = .regRead off :: rest →
    ∃ x : Word, step s = .next { s with inputs := rest, reads := s.reads ++ [x] } ∧
      (off = 0 → x = 0) ∧
      (off = 1 → x.getLsbD 0 = s.busy ∧ x.getLsbD 1 = s.presence ∧ x.getLsbD 2 = s.rxbit ∧
        x.getLsbD 3 = s.ill ∧ x.getLsbD 4 = s.ovr ∧ ∀ k, 5 ≤ k → x.getLsbD k = false) ∧
      (off = 2 → x.toNat = s.rxdata.toNat) ∧
      (off = 3 → x.toNat = s.crc.toNat) ∧
      (off = 4 → x = if s.sdm = true then 1 else 0) ∧
      (off = 5 → x = if s.cfg.profile = .fast then 1 else 0) ∧
      (off = 6 → x = 0) ∧
      (off = 7 → x = 0)

/-- A write to `STATUS` clears `ILL` where bit 3 is 1 and `OVR` where bit 4 is 1, and nothing else (rule R192). -/
def Obligations.StatusWriteClearsStickyFlags : Prop :=
  ∀ (s : State) (w : Word) (rest : List Input), s.inputs = .regWrite 1 w :: rest →
    step s = .next { s with inputs := rest,
                            ill := if w.getLsbD 3 = true then false else s.ill,
                            ovr := if w.getLsbD 4 = true then false else s.ovr }

/-- A write to `CTRL` stores bit 0 in `SDM`, and nothing else (rule R193). -/
def Obligations.CtrlWriteStoresSdm : Prop :=
  ∀ (s : State) (w : Word) (rest : List Input), s.inputs = .regWrite 4 w :: rest →
    step s = .next { s with inputs := rest, sdm := w.getLsbD 0 }

/-- A write to a read-only or reserved register does nothing (rule R194). -/
def Obligations.ReadOnlyWriteIgnored : Prop :=
  ∀ (s : State) (off : Fin 8) (w : Word) (rest : List Input),
    off = 2 ∨ off = 3 ∨ off = 5 ∨ off = 6 ∨ off = 7 → s.inputs = .regWrite off w :: rest →
    step s = .next { s with inputs := rest }

/-- The launch state (rule R45, the spec's D11), as far as the spec gives it: idle, flags and data registers zero,
the pin released with `OUT[PIN]` 0, the trace empty at time 0; every register reads 0 but `CONFIG`, which shows
the profile. -/
def Obligations.LaunchState : Prop :=
  State.reset.seq = .idle ∧ State.reset.presence = false ∧ State.reset.rxbit = false ∧
  State.reset.ill = false ∧ State.reset.ovr = false ∧ State.reset.rxdata = 0x00 ∧ State.reset.crc = 0x00 ∧
  State.reset.sdm = false ∧ State.reset.dir = false ∧ State.reset.drv = false ∧ State.reset.trace = [] ∧
  timeOf State.reset.trace = 0 ∧ (∀ off : Fin 8, off ≠ 5 → regRead State.reset off = 0) ∧
  regRead State.reset 5 = if Config.profile = .fast then 1 else 0

/-- Hardware reset at any time (rule R271, the spec's D20; that a reset during an operation is admitted, and that the
part `w` of a running delay is traced as a wait, are the model's choices, assumptions 11 and 19): the registers take
their reset values, an operation is abandoned with no result, and the pin is released at once, with a `Release` in
the trace if it was driving. A reset asserted `e` nanoseconds into a running `Delay(d)` finds `min e d` of it passed,
and no time at any other primitive or while idle. The old trace, the configuration and the rest of the GPIO entities
stay. Nothing else ends an operation before its last primitive. -/
def Obligations.HardwareResetAtAnyTime : Prop :=
  (∀ (s : State) (e : Nat) (rest : List Input), s.inputs = .hwReset e :: rest →
    ∃ (t : State) (w : Nat), step s = .next t ∧
      t.seq = .idle ∧ t.statusWord = 0 ∧ t.rxdata = 0x00 ∧ t.crc = 0x00 ∧ t.sdm = false ∧
      t.dir = false ∧ t.drv = false ∧
      (∀ j, j ≠ s.cfg.pin → t.dirPort.getD j false = s.dirPort.getD j false ∧
        t.outPort.getD j false = s.outPort.getD j false) ∧
      t.trace = s.trace ++ waitEvents w ++ (if s.dir = true then [.release] else []) ∧
      (s.busy = false → w = 0) ∧
      (∀ op arg k b, s.seq = .running op arg k b →
        (∀ d, (slotPrims op arg s)[k]? = some (.delay d) → w = min e d) ∧
        ((∀ d, (slotPrims op arg s)[k]? ≠ some (.delay d)) → w = 0)) ∧
      t.cfg = s.cfg ∧ t.answers = s.answers ∧ t.draws = s.draws ∧ t.inputs = rest ∧ t.reads = s.reads) ∧
  (∀ (s t : State) (op : LineOp) (arg : Byte) (k b : Nat), s.seq = .running op arg k b → step s = .next t →
    t.busy = false →
    (∃ e rest, s.inputs = .hwReset e :: rest) ∨ (slotLength op ≤ k + 1 ∧ slotCount op ≤ b + 1))

/-- The low pulse that a reset cuts (rule R271, the spec's D20; assumptions 11 and 19, the model's choices): LRESET
issued on an idle block and reset `e` nanoseconds into its low, for any `e` up to `T_RSTL`, leaves on the line a low
of `e` nanoseconds, then the release; the block is idle with no result. -/
def Obligations.ResetShortensTheLowPulse : Prop :=
  ∀ (s : State) (e : Nat), s.Inv → s.busy = false → e ≤ s.cfg.timing.rstL →
    ∃ t : State,
      Host.Core.run Sys2Proof.core 4 { s with inputs := [.regWrite 0 0x0100, .pass 0, .pass 0, .hwReset e] } =
        .next t ∧
      t.trace = s.trace ++ waitEvents s.cfg.timing.rstPre ++ [.driveLow] ++ waitEvents e ++ [.release] ∧
      timeOf t.trace = timeOf s.trace + s.cfg.timing.rstPre + e ∧
      t.seq = .idle ∧ t.dir = false ∧ t.presence = false

/-- What a sample sees (rule R66, derived by the spec): 0 while the block drives the line, else what the
environment shows; and taking it changes nothing on the pin. -/
def Obligations.SampleSeesTheLine : Prop :=
  ∀ s : State,
    let v := if s.dir = true then false else s.levelAfter s.trace
    perform .sample s =
      { s with sampled := v, trace := s.trace ++ [.sample v], answers := s.answers.tail, draws := s.draws + 1 }

/-- Driving and releasing change bit `PIN` of `DIR`, and no other bit of it (rules R15, R121, R122). -/
def Obligations.DriveAndReleaseMoveOneBit : Prop :=
  ∀ s : State, s.portsWf →
    (perform .driveLow s).dir = true ∧ (perform .release s).dir = false ∧
    (∀ j, j ≠ s.cfg.pin →
      (perform .driveLow s).dirPort.getD j false = s.dirPort.getD j false ∧
      (perform .release s).dirPort.getD j false = s.dirPort.getD j false) ∧
    perform .driveLow s =
      { s with dirPort := (perform .driveLow s).dirPort, trace := s.trace ++ [.driveLow] } ∧
    perform .release s = { s with dirPort := (perform .release s).dirPort, trace := s.trace ++ [.release] }

/-- Cells of the table of rule R11. `T_RSTL` and `T_PDS` are the source's exact figures in both profiles; the slot values
of the standard profile are the source's approximate figures, which the spec takes as nominal (its D9). That a
written 1 is the shorter low (rule R128) rests, in the fast profile, on two cells from general knowledge (the spec's
D8; assumption 5, PRESUMED). -/
def Obligations.TimingTableValues : Prop :=
  (Timing.ofProfile .standard).rstL = 480000 ∧ (Timing.ofProfile .fast).rstL = 70000 ∧
  (Timing.ofProfile .standard).pds = 70000 ∧ (Timing.ofProfile .fast).pds = 8500 ∧
  (Timing.ofProfile .standard).w1L = 6000 ∧ (Timing.ofProfile .standard).w0L = 60000 ∧
  (Timing.ofProfile .standard).rL = 6000 ∧ (Timing.ofProfile .standard).rS = 9000 ∧
  (Timing.ofProfile .standard).rR = 55000 ∧
  (∀ p : Profile, (Timing.ofProfile p).w1L < (Timing.ofProfile p).w0L)

/-! ## The platform and the host software -/

/-- Register addresses (rule R65, the spec's D18): `BASE + 2*off` reaches register `off`, and every other address
reaches none. -/
def Obligations.OnlyRegisterAddressesReachRegisters : Prop :=
  ∀ (c : BuildConfig) (a : Nat) (off : Fin 8), offsetOfAddress c a = some off ↔ a = c.base + 2 * off.val

/-- The hardware's delay is the least whole number of clock periods that is not too short (rule R256, the spec's
D7). -/
def Obligations.ClockPeriodsRoundUp : Prop :=
  ∀ (c : BuildConfig) (t : Nat),
    t * c.fClkHz ≤ clockPeriods c t * 10 ^ 9 ∧ clockPeriods c t * 10 ^ 9 < t * c.fClkHz + 10 ^ 9

/-- Host software (outside the block): storing a bit at one ROM position changes that position and no other
(rule R206, the positions derived by the spec). -/
def Obligations.RomBitStoreChangesOnePosition : Prop :=
  ∀ (code : List Byte) (p q : Nat) (d : Bool), code.length = 8 → 1 ≤ p → p ≤ 64 → 1 ≤ q → q ≤ 64 →
    romBit (setRomBit code p d) q = if q = p then d else romBit code q

/-- Host software (outside the block): a code that `search()` reports found has CRC8 zero over its 8 bytes, and a
search that reports not-found has cleared the search state (rules R204, R207, R211). -/
def Obligations.SearchFindsOnlyValidCodes : Prop :=
  ∀ (present : Bool) (respond : List Bool → Bool × Bool) (s : Session),
    ((search present respond s).2 = true →
      crc8 (search present respond s).1.romCode = 0 ∧ (search present respond s).1.romCode.length = 8) ∧
    ((search present respond s).2 = false →
      (search present respond s).1.lastDiscrepancy = 0 ∧
      (search present respond s).1.lastFamilyDiscrepancy = 0 ∧
      (search present respond s).1.lastDeviceFlag = false)
end

