-- ==== Sys2Proof/Laws/PerInstr.lean ====
section
/-! SUPPORT. The per-instruction family `EncodedRow`: the encoder's word selects the operation's own row of the
opcode map (rule R94), and its fields are the operation's command fields (rules R90, R92). -/

namespace Sys2Proof.Laws.EncodedRow

/-- The word of `i` selects `i`'s row, and consists of `i`'s `op` and `arg` fields. -/
def Statement (i : Instr) : Prop := i.row.selects (encode i) = true ∧ encode i = i.command.word

theorem lreset : Statement .lreset := by unfold Statement; decide

theorem wbit (b : Bool) : Statement (.wbit b) := by unfold Statement; cases b <;> decide

theorem rbit : Statement .rbit := by unfold Statement; decide

theorem sendb (v : Byte) : Statement (.sendb v) := by unfold Statement; revert v; decide

theorem recvb : Statement .recvb := by unfold Statement; decide

theorem crcclr : Statement .crcclr := by unfold Statement; decide

theorem crcb (v : Byte) : Statement (.crcb v) := by unfold Statement; revert v; decide

theorem crct (v : Byte) : Statement (.crct v) := by unfold Statement; revert v; decide

end Sys2Proof.Laws.EncodedRow
end

