-- ==== Sys2Proof/Laws/Decode.lean ====
section
/-! SUPPORT. Fields of words, and the well-formedness every operation has by its type. -/

namespace Sys2Proof

/-- The operands' types admit only legal fields: every operation is well formed (rules R92, R94). -/
theorem instr_wellFormed (i : Instr) : i.wellFormed = true := by
  cases i with
  | wbit b => cases b <;> decide
  | lreset => decide
  | rbit   => decide
  | sendb v => rfl
  | recvb  => decide
  | crcclr => decide
  | crcb v => rfl
  | crct v => rfl

/-- The `op` value of an operation is assigned its format (rules R92, R94). -/
theorem formatOfOp_command (i : Instr) : formatOfOp i.command.op = some i.format := by
  cases i <;> rfl

/-- The `op` field of a word made of two fields (rule R90). -/
@[simp] theorem opField_word (c : Command) : opField c.word = c.op := by
  unfold opField Command.word
  rw [BitVec.extractLsb'_append_eq_left]

/-- The `arg` field of a word made of two fields (rule R90). -/
@[simp] theorem argField_word (c : Command) : argField c.word = c.arg := by
  unfold argField Command.word
  rw [BitVec.extractLsb'_append_eq_right]

/-- The decoder sees a word's two fields. -/
theorem decode_word (c : Command) : decode c.word = decodeFields c.op c.arg := by
  simp [decode]

/-- The encoder's word is made of the operation's command fields. -/
theorem encode_eq_word (i : Instr) : encode i = i.command.word := by
  cases i with
  | lreset  => exact Laws.EncodedRow.lreset.2
  | wbit b  => exact (Laws.EncodedRow.wbit b).2
  | rbit    => exact Laws.EncodedRow.rbit.2
  | sendb v => exact (Laws.EncodedRow.sendb v).2
  | recvb   => exact Laws.EncodedRow.recvb.2
  | crcclr  => exact Laws.EncodedRow.crcclr.2
  | crcb v  => exact (Laws.EncodedRow.crcb v).2
  | crct v  => exact (Laws.EncodedRow.crct v).2

end Sys2Proof
end

