-- ==== Sys2Proof/Laws/State.lean ====
section
/-! SUPPORT. What each update of the state does to each field, one lemma for each, so that no proof unfolds an
update of the record. -/

namespace Sys2Proof.Machine

variable (s : State)

/-! ## driveLow -/

@[simp] theorem driveLow_seq : (driveLow s).seq = s.seq := rfl
@[simp] theorem driveLow_presence : (driveLow s).presence = s.presence := rfl
@[simp] theorem driveLow_rxbit : (driveLow s).rxbit = s.rxbit := rfl
@[simp] theorem driveLow_ill : (driveLow s).ill = s.ill := rfl
@[simp] theorem driveLow_ovr : (driveLow s).ovr = s.ovr := rfl
@[simp] theorem driveLow_rxdata : (driveLow s).rxdata = s.rxdata := rfl
@[simp] theorem driveLow_crc : (driveLow s).crc = s.crc := rfl
@[simp] theorem driveLow_sdm : (driveLow s).sdm = s.sdm := rfl
@[simp] theorem driveLow_txsh : (driveLow s).txsh = s.txsh := rfl
@[simp] theorem driveLow_rxacc : (driveLow s).rxacc = s.rxacc := rfl
@[simp] theorem driveLow_sampled : (driveLow s).sampled = s.sampled := rfl
@[simp] theorem driveLow_dirPort : (driveLow s).dirPort = gpioSet s.dirPort s.cfg.pin := rfl
@[simp] theorem driveLow_outPort : (driveLow s).outPort = s.outPort := rfl
@[simp] theorem driveLow_trace : (driveLow s).trace = s.trace ++ [.driveLow] := rfl
@[simp] theorem driveLow_cfg : (driveLow s).cfg = s.cfg := rfl
@[simp] theorem driveLow_answers : (driveLow s).answers = s.answers := rfl
@[simp] theorem driveLow_draws : (driveLow s).draws = s.draws := rfl
@[simp] theorem driveLow_inputs : (driveLow s).inputs = s.inputs := rfl
@[simp] theorem driveLow_reads : (driveLow s).reads = s.reads := rfl

/-! ## release -/

@[simp] theorem release_seq : (release s).seq = s.seq := rfl
@[simp] theorem release_presence : (release s).presence = s.presence := rfl
@[simp] theorem release_rxbit : (release s).rxbit = s.rxbit := rfl
@[simp] theorem release_ill : (release s).ill = s.ill := rfl
@[simp] theorem release_ovr : (release s).ovr = s.ovr := rfl
@[simp] theorem release_rxdata : (release s).rxdata = s.rxdata := rfl
@[simp] theorem release_crc : (release s).crc = s.crc := rfl
@[simp] theorem release_sdm : (release s).sdm = s.sdm := rfl
@[simp] theorem release_txsh : (release s).txsh = s.txsh := rfl
@[simp] theorem release_rxacc : (release s).rxacc = s.rxacc := rfl
@[simp] theorem release_sampled : (release s).sampled = s.sampled := rfl
@[simp] theorem release_dirPort : (release s).dirPort = gpioClear s.dirPort s.cfg.pin := rfl
@[simp] theorem release_outPort : (release s).outPort = s.outPort := rfl
@[simp] theorem release_trace : (release s).trace = s.trace ++ [.release] := rfl
@[simp] theorem release_cfg : (release s).cfg = s.cfg := rfl
@[simp] theorem release_answers : (release s).answers = s.answers := rfl
@[simp] theorem release_draws : (release s).draws = s.draws := rfl
@[simp] theorem release_inputs : (release s).inputs = s.inputs := rfl
@[simp] theorem release_reads : (release s).reads = s.reads := rfl

/-! ## delay -/

@[simp] theorem delay_seq (t : Nat) : (delay t s).seq = s.seq := rfl
@[simp] theorem delay_presence (t : Nat) : (delay t s).presence = s.presence := rfl
@[simp] theorem delay_rxbit (t : Nat) : (delay t s).rxbit = s.rxbit := rfl
@[simp] theorem delay_ill (t : Nat) : (delay t s).ill = s.ill := rfl
@[simp] theorem delay_ovr (t : Nat) : (delay t s).ovr = s.ovr := rfl
@[simp] theorem delay_rxdata (t : Nat) : (delay t s).rxdata = s.rxdata := rfl
@[simp] theorem delay_crc (t : Nat) : (delay t s).crc = s.crc := rfl
@[simp] theorem delay_sdm (t : Nat) : (delay t s).sdm = s.sdm := rfl
@[simp] theorem delay_txsh (t : Nat) : (delay t s).txsh = s.txsh := rfl
@[simp] theorem delay_rxacc (t : Nat) : (delay t s).rxacc = s.rxacc := rfl
@[simp] theorem delay_sampled (t : Nat) : (delay t s).sampled = s.sampled := rfl
@[simp] theorem delay_dirPort (t : Nat) : (delay t s).dirPort = s.dirPort := rfl
@[simp] theorem delay_outPort (t : Nat) : (delay t s).outPort = s.outPort := rfl
@[simp] theorem delay_trace (t : Nat) : (delay t s).trace = s.trace ++ waitEvents t := rfl
@[simp] theorem delay_cfg (t : Nat) : (delay t s).cfg = s.cfg := rfl
@[simp] theorem delay_answers (t : Nat) : (delay t s).answers = s.answers := rfl
@[simp] theorem delay_draws (t : Nat) : (delay t s).draws = s.draws := rfl
@[simp] theorem delay_inputs (t : Nat) : (delay t s).inputs = s.inputs := rfl
@[simp] theorem delay_reads (t : Nat) : (delay t s).reads = s.reads := rfl

/-! ## sample -/

@[simp] theorem sample_seq : (sample s).seq = s.seq := rfl
@[simp] theorem sample_presence : (sample s).presence = s.presence := rfl
@[simp] theorem sample_rxbit : (sample s).rxbit = s.rxbit := rfl
@[simp] theorem sample_ill : (sample s).ill = s.ill := rfl
@[simp] theorem sample_ovr : (sample s).ovr = s.ovr := rfl
@[simp] theorem sample_rxdata : (sample s).rxdata = s.rxdata := rfl
@[simp] theorem sample_crc : (sample s).crc = s.crc := rfl
@[simp] theorem sample_sdm : (sample s).sdm = s.sdm := rfl
@[simp] theorem sample_txsh : (sample s).txsh = s.txsh := rfl
@[simp] theorem sample_rxacc : (sample s).rxacc = s.rxacc := rfl
@[simp] theorem sample_sampled : (sample s).sampled = s.lineLevel := rfl
@[simp] theorem sample_dirPort : (sample s).dirPort = s.dirPort := rfl
@[simp] theorem sample_outPort : (sample s).outPort = s.outPort := rfl
@[simp] theorem sample_trace : (sample s).trace = s.trace ++ [.sample s.lineLevel] := rfl
@[simp] theorem sample_cfg : (sample s).cfg = s.cfg := rfl
@[simp] theorem sample_answers : (sample s).answers = s.answers.tail := rfl
@[simp] theorem sample_draws : (sample s).draws = s.draws + 1 := rfl
@[simp] theorem sample_inputs : (sample s).inputs = s.inputs := rfl
@[simp] theorem sample_reads : (sample s).reads = s.reads := rfl

/-! ## raise_ill -/

@[simp] theorem raise_ill_seq : (raise .ill s).seq = s.seq := rfl
@[simp] theorem raise_ill_presence : (raise .ill s).presence = s.presence := rfl
@[simp] theorem raise_ill_rxbit : (raise .ill s).rxbit = s.rxbit := rfl
@[simp] theorem raise_ill_ill : (raise .ill s).ill = true := rfl
@[simp] theorem raise_ill_ovr : (raise .ill s).ovr = s.ovr := rfl
@[simp] theorem raise_ill_rxdata : (raise .ill s).rxdata = s.rxdata := rfl
@[simp] theorem raise_ill_crc : (raise .ill s).crc = s.crc := rfl
@[simp] theorem raise_ill_sdm : (raise .ill s).sdm = s.sdm := rfl
@[simp] theorem raise_ill_txsh : (raise .ill s).txsh = s.txsh := rfl
@[simp] theorem raise_ill_rxacc : (raise .ill s).rxacc = s.rxacc := rfl
@[simp] theorem raise_ill_sampled : (raise .ill s).sampled = s.sampled := rfl
@[simp] theorem raise_ill_dirPort : (raise .ill s).dirPort = s.dirPort := rfl
@[simp] theorem raise_ill_outPort : (raise .ill s).outPort = s.outPort := rfl
@[simp] theorem raise_ill_trace : (raise .ill s).trace = s.trace := rfl
@[simp] theorem raise_ill_cfg : (raise .ill s).cfg = s.cfg := rfl
@[simp] theorem raise_ill_answers : (raise .ill s).answers = s.answers := rfl
@[simp] theorem raise_ill_draws : (raise .ill s).draws = s.draws := rfl
@[simp] theorem raise_ill_inputs : (raise .ill s).inputs = s.inputs := rfl
@[simp] theorem raise_ill_reads : (raise .ill s).reads = s.reads := rfl

/-! ## raise_ovr -/

@[simp] theorem raise_ovr_seq : (raise .ovr s).seq = s.seq := rfl
@[simp] theorem raise_ovr_presence : (raise .ovr s).presence = s.presence := rfl
@[simp] theorem raise_ovr_rxbit : (raise .ovr s).rxbit = s.rxbit := rfl
@[simp] theorem raise_ovr_ill : (raise .ovr s).ill = s.ill := rfl
@[simp] theorem raise_ovr_ovr : (raise .ovr s).ovr = true := rfl
@[simp] theorem raise_ovr_rxdata : (raise .ovr s).rxdata = s.rxdata := rfl
@[simp] theorem raise_ovr_crc : (raise .ovr s).crc = s.crc := rfl
@[simp] theorem raise_ovr_sdm : (raise .ovr s).sdm = s.sdm := rfl
@[simp] theorem raise_ovr_txsh : (raise .ovr s).txsh = s.txsh := rfl
@[simp] theorem raise_ovr_rxacc : (raise .ovr s).rxacc = s.rxacc := rfl
@[simp] theorem raise_ovr_sampled : (raise .ovr s).sampled = s.sampled := rfl
@[simp] theorem raise_ovr_dirPort : (raise .ovr s).dirPort = s.dirPort := rfl
@[simp] theorem raise_ovr_outPort : (raise .ovr s).outPort = s.outPort := rfl
@[simp] theorem raise_ovr_trace : (raise .ovr s).trace = s.trace := rfl
@[simp] theorem raise_ovr_cfg : (raise .ovr s).cfg = s.cfg := rfl
@[simp] theorem raise_ovr_answers : (raise .ovr s).answers = s.answers := rfl
@[simp] theorem raise_ovr_draws : (raise .ovr s).draws = s.draws := rfl
@[simp] theorem raise_ovr_inputs : (raise .ovr s).inputs = s.inputs := rfl
@[simp] theorem raise_ovr_reads : (raise .ovr s).reads = s.reads := rfl

/-! ## clearErrors -/

@[simp] theorem clearErrors_seq (w : Word) : (clearErrors w s).seq = s.seq := rfl
@[simp] theorem clearErrors_presence (w : Word) : (clearErrors w s).presence = s.presence := rfl
@[simp] theorem clearErrors_rxbit (w : Word) : (clearErrors w s).rxbit = s.rxbit := rfl
@[simp] theorem clearErrors_ill (w : Word) : (clearErrors w s).ill = (s.ill && !w.getLsbD 3) := rfl
@[simp] theorem clearErrors_ovr (w : Word) : (clearErrors w s).ovr = (s.ovr && !w.getLsbD 4) := rfl
@[simp] theorem clearErrors_rxdata (w : Word) : (clearErrors w s).rxdata = s.rxdata := rfl
@[simp] theorem clearErrors_crc (w : Word) : (clearErrors w s).crc = s.crc := rfl
@[simp] theorem clearErrors_sdm (w : Word) : (clearErrors w s).sdm = s.sdm := rfl
@[simp] theorem clearErrors_txsh (w : Word) : (clearErrors w s).txsh = s.txsh := rfl
@[simp] theorem clearErrors_rxacc (w : Word) : (clearErrors w s).rxacc = s.rxacc := rfl
@[simp] theorem clearErrors_sampled (w : Word) : (clearErrors w s).sampled = s.sampled := rfl
@[simp] theorem clearErrors_dirPort (w : Word) : (clearErrors w s).dirPort = s.dirPort := rfl
@[simp] theorem clearErrors_outPort (w : Word) : (clearErrors w s).outPort = s.outPort := rfl
@[simp] theorem clearErrors_trace (w : Word) : (clearErrors w s).trace = s.trace := rfl
@[simp] theorem clearErrors_cfg (w : Word) : (clearErrors w s).cfg = s.cfg := rfl
@[simp] theorem clearErrors_answers (w : Word) : (clearErrors w s).answers = s.answers := rfl
@[simp] theorem clearErrors_draws (w : Word) : (clearErrors w s).draws = s.draws := rfl
@[simp] theorem clearErrors_inputs (w : Word) : (clearErrors w s).inputs = s.inputs := rfl
@[simp] theorem clearErrors_reads (w : Word) : (clearErrors w s).reads = s.reads := rfl

/-! ## start -/

@[simp] theorem start_seq (op : LineOp) (arg : Byte) : (start op arg s).seq = .running op arg 0 0 := rfl
@[simp] theorem start_presence (op : LineOp) (arg : Byte) : (start op arg s).presence = s.presence := rfl
@[simp] theorem start_rxbit (op : LineOp) (arg : Byte) : (start op arg s).rxbit = s.rxbit := rfl
@[simp] theorem start_ill (op : LineOp) (arg : Byte) : (start op arg s).ill = s.ill := rfl
@[simp] theorem start_ovr (op : LineOp) (arg : Byte) : (start op arg s).ovr = s.ovr := rfl
@[simp] theorem start_rxdata (op : LineOp) (arg : Byte) : (start op arg s).rxdata = s.rxdata := rfl
@[simp] theorem start_crc (op : LineOp) (arg : Byte) : (start op arg s).crc = s.crc := rfl
@[simp] theorem start_sdm (op : LineOp) (arg : Byte) : (start op arg s).sdm = s.sdm := rfl
@[simp] theorem start_txsh (op : LineOp) (arg : Byte) : (start op arg s).txsh = s.txsh := rfl
@[simp] theorem start_rxacc (op : LineOp) (arg : Byte) : (start op arg s).rxacc = s.rxacc := rfl
@[simp] theorem start_sampled (op : LineOp) (arg : Byte) : (start op arg s).sampled = s.sampled := rfl
@[simp] theorem start_dirPort (op : LineOp) (arg : Byte) : (start op arg s).dirPort = s.dirPort := rfl
@[simp] theorem start_outPort (op : LineOp) (arg : Byte) : (start op arg s).outPort = s.outPort := rfl
@[simp] theorem start_trace (op : LineOp) (arg : Byte) : (start op arg s).trace = s.trace := rfl
@[simp] theorem start_cfg (op : LineOp) (arg : Byte) : (start op arg s).cfg = s.cfg := rfl
@[simp] theorem start_answers (op : LineOp) (arg : Byte) : (start op arg s).answers = s.answers := rfl
@[simp] theorem start_draws (op : LineOp) (arg : Byte) : (start op arg s).draws = s.draws := rfl
@[simp] theorem start_inputs (op : LineOp) (arg : Byte) : (start op arg s).inputs = s.inputs := rfl
@[simp] theorem start_reads (op : LineOp) (arg : Byte) : (start op arg s).reads = s.reads := rfl

/-! ## lresetComplete -/

@[simp] theorem lresetComplete_seq : (lresetComplete s).seq = .idle := rfl
@[simp] theorem lresetComplete_presence : (lresetComplete s).presence = presenceOf s.sampled := rfl
@[simp] theorem lresetComplete_rxbit : (lresetComplete s).rxbit = s.rxbit := rfl
@[simp] theorem lresetComplete_ill : (lresetComplete s).ill = s.ill := rfl
@[simp] theorem lresetComplete_ovr : (lresetComplete s).ovr = s.ovr := rfl
@[simp] theorem lresetComplete_rxdata : (lresetComplete s).rxdata = s.rxdata := rfl
@[simp] theorem lresetComplete_crc : (lresetComplete s).crc = s.crc := rfl
@[simp] theorem lresetComplete_sdm : (lresetComplete s).sdm = s.sdm := rfl
@[simp] theorem lresetComplete_txsh : (lresetComplete s).txsh = s.txsh := rfl
@[simp] theorem lresetComplete_rxacc : (lresetComplete s).rxacc = s.rxacc := rfl
@[simp] theorem lresetComplete_sampled : (lresetComplete s).sampled = s.sampled := rfl
@[simp] theorem lresetComplete_dirPort : (lresetComplete s).dirPort = s.dirPort := rfl
@[simp] theorem lresetComplete_outPort : (lresetComplete s).outPort = s.outPort := rfl
@[simp] theorem lresetComplete_trace : (lresetComplete s).trace = s.trace := rfl
@[simp] theorem lresetComplete_cfg : (lresetComplete s).cfg = s.cfg := rfl
@[simp] theorem lresetComplete_answers : (lresetComplete s).answers = s.answers := rfl
@[simp] theorem lresetComplete_draws : (lresetComplete s).draws = s.draws := rfl
@[simp] theorem lresetComplete_inputs : (lresetComplete s).inputs = s.inputs := rfl
@[simp] theorem lresetComplete_reads : (lresetComplete s).reads = s.reads := rfl

/-! ## wbitComplete -/

@[simp] theorem wbitComplete_seq : (wbitComplete s).seq = .idle := rfl
@[simp] theorem wbitComplete_presence : (wbitComplete s).presence = s.presence := rfl
@[simp] theorem wbitComplete_rxbit : (wbitComplete s).rxbit = s.rxbit := rfl
@[simp] theorem wbitComplete_ill : (wbitComplete s).ill = s.ill := rfl
@[simp] theorem wbitComplete_ovr : (wbitComplete s).ovr = s.ovr := rfl
@[simp] theorem wbitComplete_rxdata : (wbitComplete s).rxdata = s.rxdata := rfl
@[simp] theorem wbitComplete_crc : (wbitComplete s).crc = s.crc := rfl
@[simp] theorem wbitComplete_sdm : (wbitComplete s).sdm = s.sdm := rfl
@[simp] theorem wbitComplete_txsh : (wbitComplete s).txsh = s.txsh := rfl
@[simp] theorem wbitComplete_rxacc : (wbitComplete s).rxacc = s.rxacc := rfl
@[simp] theorem wbitComplete_sampled : (wbitComplete s).sampled = s.sampled := rfl
@[simp] theorem wbitComplete_dirPort : (wbitComplete s).dirPort = s.dirPort := rfl
@[simp] theorem wbitComplete_outPort : (wbitComplete s).outPort = s.outPort := rfl
@[simp] theorem wbitComplete_trace : (wbitComplete s).trace = s.trace := rfl
@[simp] theorem wbitComplete_cfg : (wbitComplete s).cfg = s.cfg := rfl
@[simp] theorem wbitComplete_answers : (wbitComplete s).answers = s.answers := rfl
@[simp] theorem wbitComplete_draws : (wbitComplete s).draws = s.draws := rfl
@[simp] theorem wbitComplete_inputs : (wbitComplete s).inputs = s.inputs := rfl
@[simp] theorem wbitComplete_reads : (wbitComplete s).reads = s.reads := rfl

/-! ## rbitComplete -/

@[simp] theorem rbitComplete_seq : (rbitComplete s).seq = .idle := rfl
@[simp] theorem rbitComplete_presence : (rbitComplete s).presence = s.presence := rfl
@[simp] theorem rbitComplete_rxbit : (rbitComplete s).rxbit = s.sampled := rfl
@[simp] theorem rbitComplete_ill : (rbitComplete s).ill = s.ill := rfl
@[simp] theorem rbitComplete_ovr : (rbitComplete s).ovr = s.ovr := rfl
@[simp] theorem rbitComplete_rxdata : (rbitComplete s).rxdata = s.rxdata := rfl
@[simp] theorem rbitComplete_crc : (rbitComplete s).crc = s.crc := rfl
@[simp] theorem rbitComplete_sdm : (rbitComplete s).sdm = s.sdm := rfl
@[simp] theorem rbitComplete_txsh : (rbitComplete s).txsh = s.txsh := rfl
@[simp] theorem rbitComplete_rxacc : (rbitComplete s).rxacc = s.rxacc := rfl
@[simp] theorem rbitComplete_sampled : (rbitComplete s).sampled = s.sampled := rfl
@[simp] theorem rbitComplete_dirPort : (rbitComplete s).dirPort = s.dirPort := rfl
@[simp] theorem rbitComplete_outPort : (rbitComplete s).outPort = s.outPort := rfl
@[simp] theorem rbitComplete_trace : (rbitComplete s).trace = s.trace := rfl
@[simp] theorem rbitComplete_cfg : (rbitComplete s).cfg = s.cfg := rfl
@[simp] theorem rbitComplete_answers : (rbitComplete s).answers = s.answers := rfl
@[simp] theorem rbitComplete_draws : (rbitComplete s).draws = s.draws := rfl
@[simp] theorem rbitComplete_inputs : (rbitComplete s).inputs = s.inputs := rfl
@[simp] theorem rbitComplete_reads : (rbitComplete s).reads = s.reads := rfl

/-! ## sendbComplete -/

@[simp] theorem sendbComplete_seq : (sendbComplete s).seq = .idle := rfl
@[simp] theorem sendbComplete_presence : (sendbComplete s).presence = s.presence := rfl
@[simp] theorem sendbComplete_rxbit : (sendbComplete s).rxbit = s.rxbit := rfl
@[simp] theorem sendbComplete_ill : (sendbComplete s).ill = s.ill := rfl
@[simp] theorem sendbComplete_ovr : (sendbComplete s).ovr = s.ovr := rfl
@[simp] theorem sendbComplete_rxdata : (sendbComplete s).rxdata = s.rxdata := rfl
@[simp] theorem sendbComplete_crc : (sendbComplete s).crc = s.crc := rfl
@[simp] theorem sendbComplete_sdm : (sendbComplete s).sdm = s.sdm := rfl
@[simp] theorem sendbComplete_txsh : (sendbComplete s).txsh = s.txsh := rfl
@[simp] theorem sendbComplete_rxacc : (sendbComplete s).rxacc = s.rxacc := rfl
@[simp] theorem sendbComplete_sampled : (sendbComplete s).sampled = s.sampled := rfl
@[simp] theorem sendbComplete_dirPort : (sendbComplete s).dirPort = s.dirPort := rfl
@[simp] theorem sendbComplete_outPort : (sendbComplete s).outPort = s.outPort := rfl
@[simp] theorem sendbComplete_trace : (sendbComplete s).trace = s.trace := rfl
@[simp] theorem sendbComplete_cfg : (sendbComplete s).cfg = s.cfg := rfl
@[simp] theorem sendbComplete_answers : (sendbComplete s).answers = s.answers := rfl
@[simp] theorem sendbComplete_draws : (sendbComplete s).draws = s.draws := rfl
@[simp] theorem sendbComplete_inputs : (sendbComplete s).inputs = s.inputs := rfl
@[simp] theorem sendbComplete_reads : (sendbComplete s).reads = s.reads := rfl

/-! ## recvbComplete -/

@[simp] theorem recvbComplete_seq : (recvbComplete s).seq = .idle := rfl
@[simp] theorem recvbComplete_presence : (recvbComplete s).presence = s.presence := rfl
@[simp] theorem recvbComplete_rxbit : (recvbComplete s).rxbit = s.rxbit := rfl
@[simp] theorem recvbComplete_ill : (recvbComplete s).ill = s.ill := rfl
@[simp] theorem recvbComplete_ovr : (recvbComplete s).ovr = s.ovr := rfl
@[simp] theorem recvbComplete_rxdata : (recvbComplete s).rxdata = s.rxacc := rfl
@[simp] theorem recvbComplete_crc : (recvbComplete s).crc = s.crc := rfl
@[simp] theorem recvbComplete_sdm : (recvbComplete s).sdm = s.sdm := rfl
@[simp] theorem recvbComplete_txsh : (recvbComplete s).txsh = s.txsh := rfl
@[simp] theorem recvbComplete_rxacc : (recvbComplete s).rxacc = s.rxacc := rfl
@[simp] theorem recvbComplete_sampled : (recvbComplete s).sampled = s.sampled := rfl
@[simp] theorem recvbComplete_dirPort : (recvbComplete s).dirPort = s.dirPort := rfl
@[simp] theorem recvbComplete_outPort : (recvbComplete s).outPort = s.outPort := rfl
@[simp] theorem recvbComplete_trace : (recvbComplete s).trace = s.trace := rfl
@[simp] theorem recvbComplete_cfg : (recvbComplete s).cfg = s.cfg := rfl
@[simp] theorem recvbComplete_answers : (recvbComplete s).answers = s.answers := rfl
@[simp] theorem recvbComplete_draws : (recvbComplete s).draws = s.draws := rfl
@[simp] theorem recvbComplete_inputs : (recvbComplete s).inputs = s.inputs := rfl
@[simp] theorem recvbComplete_reads : (recvbComplete s).reads = s.reads := rfl

/-! ## sendbSlotEnd -/

@[simp] theorem sendbSlotEnd_seq : (sendbSlotEnd s).seq = s.seq := rfl
@[simp] theorem sendbSlotEnd_presence : (sendbSlotEnd s).presence = s.presence := rfl
@[simp] theorem sendbSlotEnd_rxbit : (sendbSlotEnd s).rxbit = s.rxbit := rfl
@[simp] theorem sendbSlotEnd_ill : (sendbSlotEnd s).ill = s.ill := rfl
@[simp] theorem sendbSlotEnd_ovr : (sendbSlotEnd s).ovr = s.ovr := rfl
@[simp] theorem sendbSlotEnd_rxdata : (sendbSlotEnd s).rxdata = s.rxdata := rfl
@[simp] theorem sendbSlotEnd_crc : (sendbSlotEnd s).crc = s.crc := rfl
@[simp] theorem sendbSlotEnd_sdm : (sendbSlotEnd s).sdm = s.sdm := rfl
@[simp] theorem sendbSlotEnd_txsh : (sendbSlotEnd s).txsh = s.txsh >>> 1 := rfl
@[simp] theorem sendbSlotEnd_rxacc : (sendbSlotEnd s).rxacc = s.rxacc := rfl
@[simp] theorem sendbSlotEnd_sampled : (sendbSlotEnd s).sampled = s.sampled := rfl
@[simp] theorem sendbSlotEnd_dirPort : (sendbSlotEnd s).dirPort = s.dirPort := rfl
@[simp] theorem sendbSlotEnd_outPort : (sendbSlotEnd s).outPort = s.outPort := rfl
@[simp] theorem sendbSlotEnd_trace : (sendbSlotEnd s).trace = s.trace := rfl
@[simp] theorem sendbSlotEnd_cfg : (sendbSlotEnd s).cfg = s.cfg := rfl
@[simp] theorem sendbSlotEnd_answers : (sendbSlotEnd s).answers = s.answers := rfl
@[simp] theorem sendbSlotEnd_draws : (sendbSlotEnd s).draws = s.draws := rfl
@[simp] theorem sendbSlotEnd_inputs : (sendbSlotEnd s).inputs = s.inputs := rfl
@[simp] theorem sendbSlotEnd_reads : (sendbSlotEnd s).reads = s.reads := rfl

/-! ## recvbSlotEnd -/

@[simp] theorem recvbSlotEnd_seq : (recvbSlotEnd s).seq = s.seq := rfl
@[simp] theorem recvbSlotEnd_presence : (recvbSlotEnd s).presence = s.presence := rfl
@[simp] theorem recvbSlotEnd_rxbit : (recvbSlotEnd s).rxbit = s.rxbit := rfl
@[simp] theorem recvbSlotEnd_ill : (recvbSlotEnd s).ill = s.ill := rfl
@[simp] theorem recvbSlotEnd_ovr : (recvbSlotEnd s).ovr = s.ovr := rfl
@[simp] theorem recvbSlotEnd_rxdata : (recvbSlotEnd s).rxdata = s.rxdata := rfl
@[simp] theorem recvbSlotEnd_crc : (recvbSlotEnd s).crc = s.crc := rfl
@[simp] theorem recvbSlotEnd_sdm : (recvbSlotEnd s).sdm = s.sdm := rfl
@[simp] theorem recvbSlotEnd_txsh : (recvbSlotEnd s).txsh = s.txsh := rfl
@[simp] theorem recvbSlotEnd_rxacc : (recvbSlotEnd s).rxacc = rxShift s.rxacc s.sampled := rfl
@[simp] theorem recvbSlotEnd_sampled : (recvbSlotEnd s).sampled = s.sampled := rfl
@[simp] theorem recvbSlotEnd_dirPort : (recvbSlotEnd s).dirPort = s.dirPort := rfl
@[simp] theorem recvbSlotEnd_outPort : (recvbSlotEnd s).outPort = s.outPort := rfl
@[simp] theorem recvbSlotEnd_trace : (recvbSlotEnd s).trace = s.trace := rfl
@[simp] theorem recvbSlotEnd_cfg : (recvbSlotEnd s).cfg = s.cfg := rfl
@[simp] theorem recvbSlotEnd_answers : (recvbSlotEnd s).answers = s.answers := rfl
@[simp] theorem recvbSlotEnd_draws : (recvbSlotEnd s).draws = s.draws := rfl
@[simp] theorem recvbSlotEnd_inputs : (recvbSlotEnd s).inputs = s.inputs := rfl
@[simp] theorem recvbSlotEnd_reads : (recvbSlotEnd s).reads = s.reads := rfl

/-! ## hostRead -/

@[simp] theorem hostRead_seq (off : Fin 8) : (hostRead off s).seq = s.seq := rfl
@[simp] theorem hostRead_presence (off : Fin 8) : (hostRead off s).presence = s.presence := rfl
@[simp] theorem hostRead_rxbit (off : Fin 8) : (hostRead off s).rxbit = s.rxbit := rfl
@[simp] theorem hostRead_ill (off : Fin 8) : (hostRead off s).ill = s.ill := rfl
@[simp] theorem hostRead_ovr (off : Fin 8) : (hostRead off s).ovr = s.ovr := rfl
@[simp] theorem hostRead_rxdata (off : Fin 8) : (hostRead off s).rxdata = s.rxdata := rfl
@[simp] theorem hostRead_crc (off : Fin 8) : (hostRead off s).crc = s.crc := rfl
@[simp] theorem hostRead_sdm (off : Fin 8) : (hostRead off s).sdm = s.sdm := rfl
@[simp] theorem hostRead_txsh (off : Fin 8) : (hostRead off s).txsh = s.txsh := rfl
@[simp] theorem hostRead_rxacc (off : Fin 8) : (hostRead off s).rxacc = s.rxacc := rfl
@[simp] theorem hostRead_sampled (off : Fin 8) : (hostRead off s).sampled = s.sampled := rfl
@[simp] theorem hostRead_dirPort (off : Fin 8) : (hostRead off s).dirPort = s.dirPort := rfl
@[simp] theorem hostRead_outPort (off : Fin 8) : (hostRead off s).outPort = s.outPort := rfl
@[simp] theorem hostRead_trace (off : Fin 8) : (hostRead off s).trace = s.trace := rfl
@[simp] theorem hostRead_cfg (off : Fin 8) : (hostRead off s).cfg = s.cfg := rfl
@[simp] theorem hostRead_answers (off : Fin 8) : (hostRead off s).answers = s.answers := rfl
@[simp] theorem hostRead_draws (off : Fin 8) : (hostRead off s).draws = s.draws := rfl
@[simp] theorem hostRead_inputs (off : Fin 8) : (hostRead off s).inputs = s.inputs := rfl
@[simp] theorem hostRead_reads (off : Fin 8) : (hostRead off s).reads = s.reads ++ [regRead s off] := rfl

/-! ## hardwareReset -/

@[simp] theorem hardwareReset_seq (e : Nat) : (hardwareReset e s).seq = .idle := rfl
@[simp] theorem hardwareReset_presence (e : Nat) : (hardwareReset e s).presence = false := rfl
@[simp] theorem hardwareReset_rxbit (e : Nat) : (hardwareReset e s).rxbit = false := rfl
@[simp] theorem hardwareReset_ill (e : Nat) : (hardwareReset e s).ill = false := rfl
@[simp] theorem hardwareReset_ovr (e : Nat) : (hardwareReset e s).ovr = false := rfl
@[simp] theorem hardwareReset_rxdata (e : Nat) : (hardwareReset e s).rxdata = 0x00 := rfl
@[simp] theorem hardwareReset_crc (e : Nat) : (hardwareReset e s).crc = 0x00 := rfl
@[simp] theorem hardwareReset_sdm (e : Nat) : (hardwareReset e s).sdm = false := rfl
@[simp] theorem hardwareReset_txsh (e : Nat) : (hardwareReset e s).txsh = 0x00 := rfl
@[simp] theorem hardwareReset_rxacc (e : Nat) : (hardwareReset e s).rxacc = 0x00 := rfl
@[simp] theorem hardwareReset_sampled (e : Nat) : (hardwareReset e s).sampled = false := rfl
@[simp] theorem hardwareReset_dirPort (e : Nat) : (hardwareReset e s).dirPort = gpioClear s.dirPort s.cfg.pin := rfl
@[simp] theorem hardwareReset_outPort (e : Nat) : (hardwareReset e s).outPort = gpioClear s.outPort s.cfg.pin := rfl
@[simp] theorem hardwareReset_trace (e : Nat) : (hardwareReset e s).trace = s.trace ++ resetEvents e s := rfl
@[simp] theorem hardwareReset_cfg (e : Nat) : (hardwareReset e s).cfg = s.cfg := rfl
@[simp] theorem hardwareReset_answers (e : Nat) : (hardwareReset e s).answers = s.answers := rfl
@[simp] theorem hardwareReset_draws (e : Nat) : (hardwareReset e s).draws = s.draws := rfl
@[simp] theorem hardwareReset_inputs (e : Nat) : (hardwareReset e s).inputs = s.inputs := rfl
@[simp] theorem hardwareReset_reads (e : Nat) : (hardwareReset e s).reads = s.reads := rfl

end Sys2Proof.Machine
end

