-- ==== Sys2Proof/Laws/Ops.lean ====
section
/-! SUPPORT. What the shared operations do: the GPIO bits, the line level, the gate of a command. -/

namespace Sys2Proof.Machine

/-! ## GPIO entities -/

@[simp] theorem gpioSet_length (e : List Bool) (pin : Nat) : (gpioSet e pin).length = e.length := by
  simp [gpioSet]

@[simp] theorem gpioClear_length (e : List Bool) (pin : Nat) : (gpioClear e pin).length = e.length := by
  simp [gpioClear]

theorem gpioSet_other {pin j : Nat} (e : List Bool) (h : j ≠ pin) :
    (gpioSet e pin).getD j false = e.getD j false := by
  simp [gpioSet, List.getD, List.getElem?_set_ne (Ne.symm h)]

theorem gpioClear_other {pin j : Nat} (e : List Bool) (h : j ≠ pin) :
    (gpioClear e pin).getD j false = e.getD j false := by
  simp [gpioClear, List.getD, List.getElem?_set_ne (Ne.symm h)]

theorem gpioSet_self {pin : Nat} (e : List Bool) (h : pin < e.length) :
    (gpioSet e pin).getD pin false = true := by
  simp [gpioSet, List.getD, h]

/-- Clearing leaves 0 at the pin, whether or not the entity is wide enough to hold it. -/
theorem gpioClear_self (e : List Bool) (pin : Nat) : (gpioClear e pin).getD pin false = false := by
  by_cases h : pin < e.length <;> simp [gpioClear, List.getD, h]

/-- A set followed by a clear restores an entity whose bit was 0. -/
theorem gpioClear_gpioSet {pin : Nat} (e : List Bool) (h : e.getD pin false = false) :
    gpioClear (gpioSet e pin) pin = e := by
  apply List.ext_getElem (by simp)
  intro j h₁ h₂
  by_cases hj : pin = j
  · subst hj
    simp_all [gpioClear, gpioSet, List.getD]
  · simp [gpioClear, gpioSet, hj]

/-! ## The pin -/

theorem driveLow_dir {s : State} (h : s.cfg.pin < s.dirPort.length) : (driveLow s).dir = true := by
  simpa [State.dir] using gpioSet_self s.dirPort h

@[simp] theorem release_dir (s : State) : (release s).dir = false := gpioClear_self _ _

@[simp] theorem delay_dir (t : Nat) (s : State) : (delay t s).dir = s.dir := rfl

@[simp] theorem sample_dir (s : State) : (sample s).dir = s.dir := rfl

@[simp] theorem hardwareReset_dir (e : Nat) (s : State) : (hardwareReset e s).dir = false := gpioClear_self _ _

@[simp] theorem hardwareReset_drv (e : Nat) (s : State) : (hardwareReset e s).drv = false := gpioClear_self _ _

/-- Reset of an idle block cuts no delay. -/
theorem cutDelay_idle {s : State} (e : Nat) (h : s.seq = .idle) : cutDelay e s = 0 := by
  simp [cutDelay, h]

/-- Reset while the sequencer stands at a delay lets at most that delay pass. -/
theorem cutDelay_delay {s : State} {op : LineOp} {arg : Byte} {k b t : Nat} (e : Nat)
    (h : s.seq = .running op arg k b) (hp : (slotPrims op arg s)[k]? = some (.delay t)) :
    cutDelay e s = min e t := by
  simp [cutDelay, h, hp, elapsedOf]

/-- Reset while the sequencer stands at no delay cuts none. -/
theorem cutDelay_no_delay {s : State} {op : LineOp} {arg : Byte} {k b : Nat} (e : Nat)
    (h : s.seq = .running op arg k b) (hp : ∀ t, (slotPrims op arg s)[k]? ≠ some (.delay t)) :
    cutDelay e s = 0 := by
  simp only [cutDelay, h]
  rcases hq : (slotPrims op arg s)[k]? with _ | _ | _ | t | _
  · rfl
  · rfl
  · rfl
  · exact absurd hq (hp t)
  · rfl

/-- Everything a reset may append to the trace: a part of a delay, and a release if the pin was driving. -/
theorem resetEvents_eq (e : Nat) (s : State) :
    ∃ w, resetEvents e s = waitEvents w ++ (if s.dir = true then [.release] else []) ∧ w ≤ e := by
  refine ⟨cutDelay e s, rfl, ?_⟩
  unfold cutDelay
  cases s.seq with
  | idle => exact Nat.zero_le _
  | running op arg k b =>
    simp only
    rcases (slotPrims op arg s)[k]? with _ | _ | _ | t | _
    · exact Nat.zero_le _
    · exact Nat.zero_le _
    · exact Nat.zero_le _
    · exact Nat.min_le_left _ _
    · exact Nat.zero_le _

/-- While the block drives, the level is 0 (rule R66). -/
theorem lineLevel_driven {s : State} (h : s.dir = true) : s.lineLevel = false := by
  simp [State.lineLevel, h]

/-- While the pin is released, the level is the environment's (rule R66). -/
theorem lineLevel_released {s : State} (h : s.dir = false) : s.lineLevel = s.released := by
  simp [State.lineLevel, h]

/-- The next pending level, if there is one, is what the environment shows. -/
theorem released_cons {s : State} {v : Bool} {vs : List Bool} (h : s.answers = v :: vs) : s.released = v := by
  simp [State.released, h]

/-- With none pending, the environment shows the free value. -/
theorem released_nil {s : State} (h : s.answers = []) : s.released = Config.freeLevel s.trace s.draws := by
  simp [State.released, h]

/-! ## Primitives -/

/-- What no primitive touches: everything but the pin, the trace and the sample. -/
theorem perform_frame (p : Prim) (s : State) :
    perform p s =
      { s with dirPort := (perform p s).dirPort, trace := (perform p s).trace,
               sampled := (perform p s).sampled, answers := (perform p s).answers,
               draws := (perform p s).draws } := by
  cases p <;> rfl

/-- No primitive changes a bit of `DIR` that is not the block's (rule R68). -/
theorem perform_dirPort_other (p : Prim) (s : State) {j : Nat} (h : j ≠ s.cfg.pin) :
    (perform p s).dirPort.getD j false = s.dirPort.getD j false := by
  cases p with
  | driveLow => exact gpioSet_other _ h
  | release  => exact gpioClear_other _ h
  | delay t  => rfl
  | sample   => rfl

@[simp] theorem perform_dirPort_length (p : Prim) (s : State) :
    (perform p s).dirPort.length = s.dirPort.length := by
  cases p <;> simp [perform]

/-! ## The gate -/

/-- `BUSY` is 0 exactly while the sequencer is idle (rule R28). -/
theorem busy_eq_false_iff {s : State} : s.busy = false ↔ s.seq = .idle := by
  unfold State.busy
  split <;> simp_all

/-- An idle block accepts a command (rule R98). -/
theorem issue_idle {s : State} (h : s.busy = false) (e : State) : issue s e = .next e := by
  simp [issue, h]

/-- A busy block drops it and sets `OVR` (rule R242). -/
theorem issue_busy {s : State} (h : s.busy = true) (e : State) : issue s e = .next (raise .ovr s) := by
  simp [issue, h]

/-- Everything `issue` can do. -/
theorem issue_cases (s e : State) :
    (s.busy = false ∧ issue s e = .next e) ∨ (s.busy = true ∧ issue s e = .next (raise .ovr s)) := by
  cases h : s.busy
  · exact .inl ⟨rfl, issue_idle h e⟩
  · exact .inr ⟨rfl, issue_busy h e⟩

end Sys2Proof.Machine
end

