-- ==== Sys2Proof/Laws/Sequencer.lean ====
section
/-! SUPPORT. What one move of the block does, and how moves add up. -/

namespace Sys2Proof.Machine

/-- An idle block does nothing (rule R260). -/
theorem tick_idle {s : State} (h : s.seq = .idle) : tick s = s := by
  simp [tick, h]

/-- A running operation performs its next primitive and moves on (rule R36). -/
theorem tick_running {s : State} {op : LineOp} {arg : Byte} {k b : Nat} (h : s.seq = .running op arg k b) :
    tick s = advance op arg k b (slotPrims op arg s).length (performAt (slotPrims op arg s) k s) := by
  simp [tick, h]

/-- Everything `advance` can do. -/
theorem advance_cases (op : LineOp) (arg : Byte) (k b len : Nat) (s : State) :
    (k + 1 < len ∧ advance op arg k b len s = { s with seq := .running op arg (k + 1) b }) ∨
    (len ≤ k + 1 ∧ b + 1 < slotCount op ∧
      advance op arg k b len s = { slotEnd op s with seq := .running op arg 0 (b + 1) }) ∨
    (len ≤ k + 1 ∧ slotCount op ≤ b + 1 ∧ advance op arg k b len s = complete op (slotEnd op s)) := by
  unfold advance
  split
  · exact .inl ⟨‹_›, rfl⟩
  · split
    · exact .inr (.inl ⟨by omega, ‹_›, rfl⟩)
    · exact .inr (.inr ⟨by omega, by omega, rfl⟩)

/-- Performing a list's primitive is performing one primitive, or nothing past its end. -/
theorem performAt_cases (ps : List Prim) (k : Nat) (s : State) :
    (∃ p, ps[k]? = some p ∧ performAt ps k s = perform p s) ∨ (ps.length ≤ k ∧ performAt ps k s = s) := by
  unfold performAt
  split
  · exact .inl ⟨_, ‹_›, rfl⟩
  · rename_i h
    exact .inr ⟨by simpa using h, rfl⟩

/-- What moving on touches: the sequencer, the shift registers and the results (rules R36, R98). -/
theorem advance_frame (op : LineOp) (arg : Byte) (k b len : Nat) (s : State) :
    advance op arg k b len s =
      { s with seq := (advance op arg k b len s).seq, txsh := (advance op arg k b len s).txsh,
               rxacc := (advance op arg k b len s).rxacc, presence := (advance op arg k b len s).presence,
               rxbit := (advance op arg k b len s).rxbit, rxdata := (advance op arg k b len s).rxdata } := by
  rcases advance_cases op arg k b len s with ⟨_, h⟩ | ⟨_, _, h⟩ | ⟨_, _, h⟩ <;> rw [h] <;> cases op <;> rfl

/-- A move of a running block performs one primitive of the slot's list, which alone moves the pin, the trace and
the environment's answers; all else it touches is what moving on touches. -/
theorem tick_frame {s : State} {op : LineOp} {arg : Byte} {k b : Nat} (h : s.seq = .running op arg k b) :
    let u := performAt (slotPrims op arg s) k s
    tick s =
      { s with dirPort := u.dirPort, trace := u.trace, sampled := u.sampled, answers := u.answers, draws := u.draws,
               seq := (tick s).seq, txsh := (tick s).txsh, rxacc := (tick s).rxacc,
               presence := (tick s).presence, rxbit := (tick s).rxbit, rxdata := (tick s).rxdata } := by
  intro u
  rw [tick_running h, advance_frame]
  rcases performAt_cases (slotPrims op arg s) k s with ⟨p, _, hu⟩ | ⟨_, hu⟩
  · rw [hu, perform_frame]
    simp only [u, hu]
  · simp only [u, hu]

/-- Any primitive list is performed where the index is in range. -/
theorem performAt_eq {ps : List Prim} {k : Nat} {p : Prim} (h : ps[k]? = some p) (s : State) :
    performAt ps k s = perform p s := by
  simp [performAt, h]

@[simp] theorem ticks_zero (s : State) : ticks 0 s = s := rfl

@[simp] theorem ticks_succ (n : Nat) (s : State) : ticks (n + 1) s = ticks n (tick s) := rfl

/-- Moves add up. -/
theorem ticks_add (m n : Nat) (s : State) : ticks (m + n) s = ticks n (ticks m s) := by
  induction m generalizing s with
  | zero => simp
  | succ m ih => rw [Nat.succ_add, ticks_succ, ih, ticks_succ]

/-- An idle block stays as it is however long it is left alone. -/
theorem ticks_idle {s : State} (h : s.seq = .idle) (n : Nat) : ticks n s = s := by
  induction n with
  | zero => rfl
  | succ n ih => rw [ticks_succ, tick_idle h, ih]

/-- The list of a slot has the length the rules give it. -/
theorem slotPrims_length (op : LineOp) (arg : Byte) (s : State) :
    (slotPrims op arg s).length = match op with
      | .lreset => 7
      | .wbit   => 4
      | .rbit   => 6
      | .sendb  => 4
      | .recvb  => 6 := by
  cases op <;> rfl

end Sys2Proof.Machine
end

