-- ==== Sys2Proof/Laws/Step.lean ====
section
/-! SUPPORT. What one step does, by the next move of the outside world. -/

namespace Sys2Proof.Machine

variable {s : State} {rest : List Input}

/-- With no move pending, the block moves. -/
theorem step_nil (h : s.inputs = []) : step s = .next (tick s) := by
  simp [step, h]

/-- A read returns its value to the host. -/
theorem step_regRead {off : Fin 8} (h : s.inputs = .regRead off :: rest) :
    step s = .next (hostRead off { s with inputs := rest }) := by
  simp [step, h]

/-- The host lets time pass. -/
theorem step_pass {gap : Nat} (h : s.inputs = .pass gap :: rest) :
    step s = .next (hostPass gap { s with inputs := rest }) := by
  simp [step, h]

/-- Hardware reset. -/
theorem step_hwReset {e : Nat} (h : s.inputs = .hwReset e :: rest) :
    step s = .next (hardwareReset e { s with inputs := rest }) := by
  simp [step, h]

/-- A write to a register other than `CMD`. -/
theorem step_register {off : Fin 8} {w : Word} (h : s.inputs = .regWrite off w :: rest) (hoff : off ≠ 0) :
    step s = .next (regWrite off w { s with inputs := rest }) := by
  have hk : writeKind s off w = .register := by
    fin_cases off <;> first | exact absurd rfl hoff | rfl
  simp [step, h, hk]

/-- A word written to `CMD` while busy: `OVR` (rule R242). -/
theorem step_overrun {w : Word} (h : s.inputs = .regWrite 0 w :: rest) (hb : s.busy = true) :
    step s = .next (raise .ovr { s with inputs := rest }) := by
  have hk : writeKind s 0 w = .overrun := by simp [writeKind, regAt, hb]
  simp [step, h, hk]

/-- An illegal word written to `CMD` while idle: `ILL` (rule R241). -/
theorem step_illegal {w : Word} {why : IllegalWord} (h : s.inputs = .regWrite 0 w :: rest)
    (hb : s.busy = false) (hd : decode w = .illegal why) :
    step s = .next (raise .ill { s with inputs := rest }) := by
  have hk : writeKind s 0 w = .illegal := by simp [writeKind, regAt, hb, hd]
  simp [step, h, hk]

/-- A command written while idle is executed (rule R98). -/
theorem step_command {w : Word} {i : Instr} (h : s.inputs = .regWrite 0 w :: rest)
    (hb : s.busy = false) (hd : decode w = .operation i) :
    step s = exec i { s with inputs := rest } := by
  have hk : writeKind s 0 w = .command i := by simp [writeKind, regAt, hb, hd]
  simp [step, h, hk]

/-- What an accepted operation makes of the state (rules R98, R151, R171 to R173). -/
def accepted (s : State) : Instr → State
  | .lreset  => start .lreset noArg s
  | .wbit b  => start .wbit (bitArg b) s
  | .rbit    => start .rbit noArg s
  | .sendb v => { start .sendb v s with txsh := v }
  | .recvb   => start .recvb noArg s
  | .crcclr  => { s with crc := 0x00 }
  | .crcb v  => { s with crc := crcStep s.crc v }
  | .crct v  => { s with crc := crcLookup (s.crc ^^^ v) }

/-- Every operation passes the same gate. -/
theorem exec_eq_issue (i : Instr) (s : State) : exec i s = issue s (accepted s i) := by
  cases i <;> rfl

/-- Everything one step can do. -/
theorem step_cases (s : State) :
    (s.inputs = [] ∧ step s = .next (tick s)) ∨
    (∃ off rest, s.inputs = .regRead off :: rest ∧ step s = .next (hostRead off { s with inputs := rest })) ∨
    (∃ gap rest, s.inputs = .pass gap :: rest ∧ step s = .next (hostPass gap { s with inputs := rest })) ∨
    (∃ e rest, s.inputs = .hwReset e :: rest ∧ step s = .next (hardwareReset e { s with inputs := rest })) ∨
    (∃ off w rest, s.inputs = .regWrite off w :: rest ∧ off ≠ 0 ∧
      step s = .next (regWrite off w { s with inputs := rest })) ∨
    (∃ w rest, s.inputs = .regWrite 0 w :: rest ∧ s.busy = true ∧
      step s = .next (raise .ovr { s with inputs := rest })) ∨
    (∃ w rest why, s.inputs = .regWrite 0 w :: rest ∧ s.busy = false ∧ decode w = .illegal why ∧
      step s = .next (raise .ill { s with inputs := rest })) ∨
    (∃ w rest i, s.inputs = .regWrite 0 w :: rest ∧ s.busy = false ∧ decode w = .operation i ∧
      step s = .next (accepted { s with inputs := rest } i)) := by
  rcases h : s.inputs with _ | ⟨_ | ⟨off, w⟩ | _ | _, rest⟩
  · exact .inl ⟨rfl, step_nil h⟩
  · exact .inr (.inl ⟨_, _, rfl, step_regRead h⟩)
  · by_cases h0 : off = 0
    · subst h0
      cases hb : s.busy
      · cases hd : decode w with
        | operation i =>
          refine .inr (.inr (.inr (.inr (.inr (.inr (.inr ⟨w, rest, i, rfl, rfl, hd, ?_⟩))))))
          rw [step_command h hb hd, exec_eq_issue]
          exact issue_idle (s := { s with inputs := rest }) hb _
        | illegal why =>
          exact .inr (.inr (.inr (.inr (.inr (.inr (.inl ⟨w, rest, why, rfl, rfl, hd, step_illegal h hb hd⟩))))))
      · exact .inr (.inr (.inr (.inr (.inr (.inl ⟨w, rest, rfl, rfl, step_overrun h hb⟩)))))
    · exact .inr (.inr (.inr (.inr (.inl ⟨off, w, rest, rfl, h0, step_register h h0⟩))))
  · exact .inr (.inr (.inl ⟨_, _, rfl, step_pass h⟩))
  · exact .inr (.inr (.inr (.inl ⟨_, _, rfl, step_hwReset h⟩)))

end Sys2Proof.Machine
end

