-- ==== Sys2Proof/Laws/Slots.lean ====
section
/-! SUPPORT. What one whole slot of a byte operation does, for a block whose pin is released (rules R151, R155). -/

namespace Sys2Proof.Machine

/-- An idle block that keeps the invariant has its pin released. -/
theorem inv_idle_released {s : State} (h : s.Inv) (hb : s.busy = false) : s.dir = false := by
  obtain ⟨_, _, _, hd, _, _⟩ := h
  rw [busy_eq_false_iff] at hb
  rw [hd, hb]
  rfl

/-- One slot of SENDB: a write slot for `txsh[0]`, then the shift (rule R151). -/
theorem ticks_sendb_slot (s : State) (arg : Byte) (b : Nat) (hs : s.seq = .running .sendb arg 0 b)
    (hd : s.dir = false) :
    ticks 4 s =
      { s with seq := if b + 1 < 8 then .running .sendb arg 0 (b + 1) else .idle,
               txsh := s.txsh >>> 1,
               trace := s.trace ++ writeEvents s.cfg.timing (s.txsh.getLsbD 0) } := by
  have hset := gpioClear_gpioSet s.dirPort hd
  cases s
  subst hs
  simp only at hset
  simp [ticks, tick, slotPrims, sendbSlot, writeSlot, advance, performAt, perform, slotCount, byteSlots, slotEnd,
    complete, driveLow, release, delay, sendbComplete, sendbSlotEnd, writeEvents, hset]
  split <;> simp_all

/-- One slot of RECVB: a read slot whose sample `x` enters the accumulator; `x` is the environment's pending level
if there is one (rule R155). -/
theorem ticks_recvb_slot (s : State) (arg : Byte) (b : Nat) (hs : s.seq = .running .recvb arg 0 b)
    (hd : s.dir = false) :
    ∃ x : Bool, (∀ y ys, s.answers = y :: ys → x = y) ∧
      ticks 6 s =
        { s with seq := if b + 1 < 8 then .running .recvb arg 0 (b + 1) else .idle,
                 rxacc := rxShift s.rxacc x,
                 rxdata := if b + 1 < 8 then s.rxdata else rxShift s.rxacc x,
                 sampled := x, answers := s.answers.tail, draws := s.draws + 1,
                 trace := s.trace ++ readEvents s.cfg.timing x } := by
  have hset := gpioClear_gpioSet s.dirPort hd
  refine ⟨s.levelAfter (s.trace ++ ([.driveLow] ++ waitEvents s.cfg.timing.rL ++ [.release] ++
    waitEvents s.cfg.timing.rS)), fun y ys h => by simp [State.levelAfter, State.released, h], ?_⟩
  cases s
  subst hs
  simp only at hset
  simp [State.dir] at hd
  simp [ticks, tick, slotPrims, recvbSlot, readSlot, advance, performAt, perform, slotCount, byteSlots, slotEnd,
    complete, driveLow, release, delay, recvbComplete, recvbSlotEnd, readEvents, sample, State.lineLevel, State.dir,
    State.levelAfter, State.released, hset]
  split <;> simp [hd]

end Sys2Proof.Machine
end

