-- ==== Sys2Proof/Laws/Trace.lean ====
section
/-! SUPPORT. How the phase and the time of a trace grow with it. -/

namespace Sys2Proof.Machine

/-- The phase after one more event. -/
theorem phaseAfter_snoc (tr : List LineEvent) (e : LineEvent) :
    phaseAfter (tr ++ [e]) = (phaseAfter tr).bind fun q => phaseStep q e := by
  simp [phaseAfter]

/-- A delay does not change the phase. -/
@[simp] theorem phaseAfter_waitEvents (tr : List LineEvent) (t : Nat) :
    phaseAfter (tr ++ waitEvents t) = phaseAfter tr := by
  unfold waitEvents
  split
  · simp
  · rw [phaseAfter_snoc]
    cases phaseAfter tr <;> simp [phaseStep, *]

/-- Times add up. -/
@[simp] theorem timeOf_append (tr₁ tr₂ : List LineEvent) : timeOf (tr₁ ++ tr₂) = timeOf tr₁ + timeOf tr₂ := by
  simp [timeOf]

/-- A delay takes its time. -/
@[simp] theorem timeOf_waitEvents (t : Nat) : timeOf (waitEvents t) = t := by
  unfold waitEvents
  split <;> simp_all [timeOf, eventTime]

@[simp] theorem timeOf_driveLow : timeOf [.driveLow] = 0 := rfl

@[simp] theorem timeOf_release : timeOf [.release] = 0 := rfl

@[simp] theorem timeOf_sample (v : Bool) : timeOf [.sample v] = 0 := rfl

/-- The time a primitive takes. -/
def primTime : Prim → Nat
  | .driveLow => 0
  | .release  => 0
  | .delay t  => t
  | .sample   => 0

/-- A primitive lengthens the trace by its own time. -/
theorem perform_timeOf (p : Prim) (s : State) : timeOf (perform p s).trace = timeOf s.trace + primTime p := by
  cases p <;> simp [perform, primTime]

end Sys2Proof.Machine
end

