-- ==== Sys2Proof/Tests/Slice0.lean ====
section
/-! SUPPORT. The model's own tests. First the well-formedness smoke test, then tests whose expected results are the
vectors of 95_test_vectors.md (each names its vector), then a witness for every obligation that has hypotheses. -/

namespace Sys2Proof.Tests

open Sys2Proof Sys2Proof.Machine

/-! ## Small states -/

/-- A block at rest in the given profile, with `PIN` 1 of 3. The other bits of `DIR` and the bit 0 of `OUT` are 1,
so a write to a wrong bit would show. The environment answers with `answers`. -/
def idleWith (p : Profile) (answers : List Bool) : State :=
  { seq := .idle, presence := false, rxbit := false, ill := false, ovr := false, rxdata := 0x00, crc := 0x5E,
    sdm := false, txsh := 0x00, rxacc := 0x00, sampled := false,
    dirPort := [true, false, true], outPort := [true, false, false], trace := [],
    cfg := { profile := p, timing := Timing.ofProfile p, pin := 1, gpioW := 3, base := 0x40, fClkHz := 50000000 },
    answers := answers, draws := 0, inputs := [], reads := [] }

/-- The standard block at rest, before a device that answers the bits of 0xA5. -/
def demo : State := idleWith .standard [true, false, true, false, false, true, false, true]

/-- The demo block with the host's next move `a`. -/
def demoWith (a : Input) : State := { demo with inputs := [a] }

/-- The demo block with `op` running, at primitive `k` of slot `b`, and no move of the host pending. -/
def runningAt (op : LineOp) (arg : Byte) (k b : Nat) : State := { demo with seq := .running op arg k b }

/-- The demo block while LRESET runs, with the host's next move `a`. -/
def busyWith (a : Input) : State := { runningAt .lreset 0 3 0 with inputs := [a] }

/-- The demo block in the low of an LRESET, with hardware reset `e` nanoseconds into it. -/
def lowWith (e : Nat) : State :=
  { runningAt .lreset 0 2 0 with dirPort := [true, true, true], trace := [.driveLow], inputs := [.hwReset e] }

/-- The state after one step. -/
def after (s : State) : State :=
  match step s with
  | .next t    => t
  | .fault _   => s
  | .refused _ => s

/-- The state an operation leaves at issue. -/
def issued (i : Instr) (s : State) : State :=
  match exec i s with
  | .next t    => t
  | .fault _   => s
  | .refused _ => s

/-! ## Well-formedness smoke test -/

/-- Every operation is well formed, with the operands at the ends of their ranges. -/
theorem test_wellformed_accepts :
    [Instr.lreset, .wbit false, .wbit true, .rbit, .sendb 0x00, .sendb 0xFF, .recvb, .crcclr, .crcb 0xFF,
      .crct 0xFF].all Instr.wellFormed = true := by decide

/-- Unassigned `op` values are refused (rule R96). -/
theorem test_wellformed_refuses_op :
    [Command.mk 0x00 0, ⟨0x06, 0⟩, ⟨0x07, 0⟩, ⟨0x0B, 0⟩, ⟨0xFF, 0⟩].any Command.wellFormed = false := by decide

/-- An operand where the format has none is refused (rule R92, format N). -/
theorem test_wellformed_refuses_format_n :
    [Command.mk 0x01 0x01, ⟨0x03, 0x80⟩, ⟨0x05, 0x01⟩, ⟨0x08, 0x01⟩].any Command.wellFormed = false := by decide

/-- A bit operand above bit 0 is refused (rule R92, format B). -/
theorem test_wellformed_refuses_format_b :
    [Command.mk 0x02 0x02, ⟨0x02, 0x03⟩, ⟨0x02, 0xFF⟩].any Command.wellFormed = false := by decide

/-! ## Decoding: words written out bit by bit from the opcode map (rule R94) -/

/-- V-ENC-1. -/
theorem test_decode_lreset : decode 0b0000000100000000 = .operation .lreset := by decide

/-- V-ENC-3 and V-ENC-4. -/
theorem test_decode_wbit : decode 0b0000001000000000 = .operation (.wbit false) ∧
    decode 0b0000001000000001 = .operation (.wbit true) := by decide

/-- V-ENC-8. -/
theorem test_decode_rbit : decode 0b0000001100000000 = .operation .rbit := by decide

/-- V-ENC-11. -/
theorem test_decode_sendb : decode 0b0000010010100101 = .operation (.sendb 0xA5) := by decide

/-- V-ENC-13. -/
theorem test_decode_recvb : decode 0b0000010100000000 = .operation .recvb := by decide

/-- V-ENC-16. -/
theorem test_decode_crcclr : decode 0b0000100000000000 = .operation .crcclr := by decide

/-- V-ENC-18 and V-ENC-19. -/
theorem test_decode_crcb : decode 0b0000100100000000 = .operation (.crcb 0x00) ∧
    decode 0b0000100111111111 = .operation (.crcb 0xFF) := by decide

/-- V-ENC-20. -/
theorem test_decode_crct : decode 0b0000101001011110 = .operation (.crct 0x5E) := by decide

/-- V-ENC-2, 5, 9, 14, 17: must-be-zero bits. -/
theorem test_decode_illegal_arg :
    [0x0101, 0x0202, 0x0380, 0x0501, 0x0801].all (fun w => decode w == .illegal .mustBeZeroSet) = true := by decide

/-- V-ENC-15, 21, 22, 23: unassigned `op` values. -/
theorem test_decode_illegal_op :
    [0x0000, 0x0600, 0x0700, 0x0B00, 0x1100, 0x8100, 0xFFFF].all
      (fun w => decode w == .illegal .unassignedOp) = true := by decide

/-- Bits above the table's `nbits` do not reach the decoder, and an illegal word gives no operation. -/
theorem test_table_word : decodeTableWord 16 0x04A5 = some (.sendb 0xA5) ∧
    decodeTableWord 16 0x0202 = none ∧ decodeTableWord 16 0x10300 = some .rbit := by decide

/-- The word placed by `withFetchWord` is the command the first step after reset runs. -/
theorem test_fetch_after_reset : step (State.reset.withFetchWord 16 0x0100) = exec .lreset State.reset :=
  step_command (rest := []) rfl rfl (by decide)

/-! ## Line operations -/

/-- V-LRESET-3: the windows of the fast profile, its pre-delay first. -/
theorem test_lreset_fast_windows : lresetPrims (Timing.ofProfile .fast) =
    [.delay 2500, .driveLow, .delay 70000, .release, .delay 8500, .sample, .delay 40000] := by decide

/-- V-LRESET-2 and V-LRESET-8: a low sample becomes `PRESENCE` 1, with the last primitive. -/
theorem test_lreset_presence :
    (tick { runningAt .lreset 0 6 0 with sampled := false }).statusWord = 0x0002 ∧
    (tick { runningAt .lreset 0 5 0 with answers := [false] }).statusWord = 0x0001 := by decide

/-- V-WBIT-1 and V-WBIT-2: the windows of the standard profile. -/
theorem test_wbit_windows :
    wbitPrims (Timing.ofProfile .standard) 0 = [.driveLow, .delay 60000, .release, .delay 10000] ∧
    wbitPrims (Timing.ofProfile .standard) 1 = [.driveLow, .delay 6000, .release, .delay 64000] := by decide

/-- V-WBIT-1, its first primitive: bit `PIN` of `DIR`, no other, and `OUT` not written. -/
theorem test_wbit_drives_pin :
    (tick (runningAt .wbit 0 0 0)).dirPort = [true, true, true] ∧
    (tick (runningAt .wbit 0 0 0)).outPort = [true, false, false] := by decide

/-- V-RBIT-1: the slot of the standard profile. -/
theorem test_rbit_windows : rbitPrims (Timing.ofProfile .standard) =
    [.driveLow, .delay 6000, .release, .delay 9000, .sample, .delay 55000] := by decide

/-- V-RBIT-1: the sample goes to `RXBIT` as it is, not inverted. -/
theorem test_rbit_result :
    (tick { runningAt .rbit 0 5 0 with sampled := true }).statusWord = 0x0004 := by decide

/-! ## Byte operations -/

/-- V-SENDB-4: the bits of 0xCC in time order, as `txsh` is shifted out. -/
theorem test_sendb_bits :
    (List.range 8).map (fun j => ((0xCC : Byte) >>> j).getLsbD 0) =
      [false, false, true, true, false, false, true, true] ∧
    byteBits 0xCC = [false, false, true, true, false, false, true, true] := by decide

/-- V-SENDB-1: the second slot of 0xA5 follows the first at once. -/
theorem test_sendb_slot_end :
    tick { runningAt .sendb 0xA5 3 0 with txsh := 0xA5 } =
      { runningAt .sendb 0xA5 0 1 with txsh := 0x52, trace := [.wait 64000] } := by decide

/-- V-RECVB-1: the accumulator after each slot. -/
theorem test_recvb_accumulator :
    [true, false, true, false, false, true, false, true].scanl rxShift 0x00 =
      [0x00, 0x80, 0x40, 0xA0, 0x50, 0x28, 0x94, 0x4A, 0xA5] := by decide

/-- V-RECVB-1: the last primitive of the last slot writes `RXDATA`; `RXBIT` is unchanged. -/
theorem test_recvb_result :
    (tick { runningAt .recvb 0 5 7 with rxacc := 0x4A, sampled := true }).rxdata = 0xA5 ∧
    (tick { runningAt .recvb 0 5 7 with rxacc := 0x4A, sampled := true }).statusWord = 0x0000 := by decide

/-- The durations of V-LRESET-1, V-LRESET-3, V-WBIT-1, V-WBIT-4, V-RBIT-3, V-SENDB-1, V-SENDB-10 and section 3.6. -/
theorem test_durations :
    [Instr.lreset, .wbit false, .sendb 0xA5, .recvb].map (duration (Timing.ofProfile .standard)) =
      [960000, 70000, 560000, 560000] ∧
    [Instr.lreset, .wbit true, .rbit, .sendb 0xA5, .recvb].map (duration (Timing.ofProfile .fast)) =
      [121000, 8500, 9000, 74000, 72000] := by decide

/-! ## CRC -/

/-- V-CRC-4. -/
theorem test_crcclr : (issued .crcclr demo).crc = 0x00 := by decide

/-- V-CRC-12: the state is carried, not cleared. -/
theorem test_crcb : (issued (.crcb 0x01) demo).crc = 0x9A := by decide

/-- V-CRC-1, its internal steps. -/
theorem test_crcb_steps :
    (List.range 9).map (fun n => crcShifts n 0x01) =
      [0x01, 0x8C, 0x46, 0x23, 0x9D, 0xC2, 0x61, 0xBC, 0x5E] := by decide

/-- V-CRC-2. -/
theorem test_crct : (issued (.crct 0x01) { demo with crc := 0x00 }).crc = 0x5E := by decide

/-- The table's spot checks at 0x5E, 0x80, 0x8C, 0xA5, 0xFE, 0xFF. -/
theorem test_crct_table :
    [0x5E, 0x80, 0x8C, 0xA5, 0xFE, 0xFF].map crcLookup = [0xC4, 0x8C, 0x2F, 0x90, 0x6B, 0x35] := by decide

/-! ## Register operations and error flags -/

/-- V-REG-5 and V-REG-6: only the addressed flag is cleared, by a 1. -/
theorem test_status_write :
    (after { demoWith (.regWrite 1 0x0010) with ill := true }).statusWord = 0x0008 ∧
    (after { demoWith (.regWrite 1 0x0007) with ill := true }).statusWord = 0x0008 := by decide

/-- V-REG-8 and V-REG-9: while busy `OVR` is set, `ILL` is not, and `CRC` stays. -/
theorem test_busy_write :
    (after (busyWith (.regWrite 0 0xFFFF))).statusWord = 0x0011 ∧
    (after (busyWith (.regWrite 0 0x0800))).crc = 0x5E := by decide

/-- V-REG-3: an illegal word while idle. -/
theorem test_illegal_write : (after (demoWith (.regWrite 0 0x0000))).statusWord = 0x0008 := by decide

/-- V-REG-10 and V-REG-11: only bit 0 of `CTRL` is stored. -/
theorem test_ctrl_write :
    regRead (after (demoWith (.regWrite 4 0xFFFF))) 4 = 0x0001 ∧
    regRead (after (demoWith (.regWrite 4 0xFFFE))) 4 = 0x0000 := by decide

/-- V-REG-12: `CRC` is not writable. -/
theorem test_crc_write : regRead (after (demoWith (.regWrite 3 0x00AA))) 3 = 0x005E := by decide

/-- V-REG-2: `CONFIG` shows the profile. -/
theorem test_config_read : regRead (idleWith .fast []) 5 = 0x0001 := by decide

/-! ## Hardware reset -/

/-- Rule R271: the low that a reset cuts is as long as the time that passed, and no longer than the delay; then the
pin is released, and no other bit of `DIR` moves. -/
theorem test_reset_cuts_low :
    (after (lowWith 1000)).trace = [.driveLow, .wait 1000, .release] ∧
    (after (lowWith 0)).trace = [.driveLow, .release] ∧
    (after (lowWith 999999)).trace = [.driveLow, .wait 480000, .release] ∧
    (after (lowWith 1000)).dirPort = [true, false, true] := by decide

/-- Rules R45 and R282: reset of an idle block appends nothing. -/
theorem test_reset_idle : (after (demoWith (.hwReset 1000))).trace = [] := by decide

/-! ## Host software -/

/-- S6 and S7: the decoded temperature and voltage. -/
theorem test_sensor_decode :
    tempRaw [0x91, 0x01] = 1281 ∧ voltRaw [0x00, 0x00, 0x00, 0xE8, 0x03] = 1000 := by decide

/-- V-CRC-5: the ROM code of the search vectors is valid. -/
theorem test_rom_valid : romValid [0x28, 0x11, 0x22, 0x33, 0x44, 0x55, 0x66, 0x56] = true := by decide +kernel

/-! ## Witnesses: hypotheses of the obligations, met together -/

/-- The demo block keeps the invariant and is idle, in both profiles. -/
theorem witness_idle_inv :
    (demo.Inv ∧ demo.busy = false) ∧ (idleWith .fast []).Inv ∧ (idleWith .fast []).busy = false := by
  unfold State.Inv State.portsWf; decide

theorem witness_DecodeOfEncode :
    Instr.lreset.wellFormed = true ∧ (Instr.wbit true).wellFormed = true ∧ (Instr.sendb 0xFF).wellFormed = true := by
  decide

theorem witness_EncodeOfDecode :
    decode 0x0201 = .operation (.wbit true) ∧ decode 0x0AFF = .operation (.crct 0xFF) := by decide

/-- One word for each clause: a word that decodes, one that selects a row, one that selects none. -/
theorem witness_DecodeFollowsOpcodeMap :
    decode 0x0201 = .operation (.wbit true) ∧
    ((⟨0x0200, 0xFFFE⟩ : OpcodeRow) ∈ opcodeRows ∧ OpcodeRow.selects ⟨0x0200, 0xFFFE⟩ 0x0201 = true) ∧
    ∀ r ∈ opcodeRows, r.selects 0x0202 = false := by decide

theorem witness_OpcodeRowsDisjoint :
    (⟨0x0400, 0xFF00⟩ : OpcodeRow) ∈ opcodeRows ∧ OpcodeRow.selects ⟨0x0400, 0xFF00⟩ 0x04FF = true := by decide

/-- Each clause at the ends of its ranges. -/
theorem witness_IllegalWordsRefused :
    opField 0x0000 = 0x00 ∧ opField 0x06FF = 0x06 ∧ opField 0x0700 = 0x07 ∧ 0x0B ≤ (opField 0x0B00).toNat ∧
    0x0B ≤ (opField 0xFFFF).toNat ∧
    (opField 0x0101 = 0x01 ∧ argField 0x0101 ≠ 0) ∧ (opField 0x03FF = 0x03 ∧ argField 0x03FF ≠ 0) ∧
    (opField 0x0580 = 0x05 ∧ argField 0x0580 ≠ 0) ∧ (opField 0x0801 = 0x08 ∧ argField 0x0801 ≠ 0) ∧
    (opField 0x0202 = 0x02 ∧ 2 ≤ (argField 0x0202).toNat) ∧
    (opField 0x02FF = 0x02 ∧ 2 ≤ (argField 0x02FF).toNat) := by decide

theorem witness_StepRunsDecodedCommand :
    (demoWith (.regWrite 0 0x0201)).inputs = .regWrite 0 0x0201 :: [] ∧
    decode 0x0201 = .operation (.wbit true) := by decide

theorem witness_IdleBlockAcceptsCommand : demo.busy = false := rfl

/-- A busy block with a command pending; and the three ways `OVR` may move. -/
theorem witness_BusyBlockDropsCommand :
    ((busyWith (.regWrite 0 0x0800)).busy = true ∧
      (busyWith (.regWrite 0 0x0800)).inputs = .regWrite 0 0x0800 :: []) ∧
    ((after { busyWith (.regWrite 1 0x0010) with ovr := true }).ovr = false ∧
      (after { busyWith (.hwReset 1000) with ovr := true }).ovr = false) ∧
    step { busyWith (.regWrite 1 0x0010) with ovr := true } =
      .next (after { busyWith (.regWrite 1 0x0010) with ovr := true }) := ⟨by decide, by decide, rfl⟩

theorem witness_IllegalCommandSetsIll :
    ((demoWith (.regWrite 0 0x0202)).busy = false ∧
      (demoWith (.regWrite 0 0x0202)).inputs = .regWrite 0 0x0202 :: [] ∧
      decode 0x0202 = .illegal .mustBeZeroSet) ∧
    ((after { demoWith (.regWrite 1 0x0008) with ill := true }).ill = false ∧
      (after { demoWith (.hwReset 1000) with ill := true }).ill = false) ∧
    step { demoWith (.regWrite 1 0x0008) with ill := true } =
      .next (after { demoWith (.regWrite 1 0x0008) with ill := true }) := ⟨by decide, by decide, rfl⟩

theorem witness_LresetRunsToCompletion : demo.Inv ∧ demo.busy = false := witness_idle_inv.1

theorem witness_WbitRunsToCompletion : demo.Inv ∧ demo.busy = false := witness_idle_inv.1

theorem witness_RbitRunsToCompletion : demo.Inv ∧ demo.busy = false := witness_idle_inv.1

theorem witness_SendbRunsToCompletion : demo.Inv ∧ demo.busy = false := witness_idle_inv.1

theorem witness_RecvbRunsToCompletion : demo.Inv ∧ demo.busy = false := witness_idle_inv.1

theorem witness_ByteOperationIsEightBitOperations : demo.Inv ∧ demo.busy = false := witness_idle_inv.1

theorem witness_EightShiftsHoldTheByte :
    [true, false, true, false, false, true, false, true].length = 8 ∧ 0 < 8 ∧ 7 < 8 := by decide

theorem witness_CrcclrResult : demo.busy = false := rfl

theorem witness_CrcbResult : demo.busy = false := rfl

theorem witness_CrctResult : demo.busy = false := rfl

theorem witness_CrcRunComputesCrc8 : demo.busy = false := rfl

theorem witness_OperationTerminates : demo.busy = false := rfl

/-- One state for each clause: no move pending, a `pass` while busy, a `pass` while idle. -/
theorem witness_PassAdvancesOnePrimitive :
    demo.inputs = [] ∧
    ((busyWith (.pass 0)).inputs = .pass 0 :: [] ∧ (busyWith (.pass 0)).busy = true) ∧
    ((demoWith (.pass 500)).inputs = .pass 500 :: [] ∧ (demoWith (.pass 500)).busy = false) := by decide

/-- One state for each case: inside a slot, at the end of a slot, at the end of the operation. -/
theorem witness_SequencerAdvancesInOrder :
    (runningAt .recvb 0 4 0).seq = .running .recvb 0 4 0 ∧ (runningAt .recvb 0 5 6).seq = .running .recvb 0 5 6 ∧
    (runningAt .recvb 0 5 7).seq = .running .recvb 0 5 7 := by decide

/-- A move that stays busy, and one completion for each result. -/
theorem witness_ResultsWrittenOnlyAtCompletion :
    (tick (runningAt .recvb 0 5 6)).busy = true ∧
    (tick (runningAt .lreset 0 6 0)).presence ≠ (runningAt .lreset 0 6 0).presence ∧
    (tick { runningAt .rbit 0 5 0 with sampled := true }).rxbit ≠ (runningAt .rbit 0 5 0).rxbit ∧
    (tick { runningAt .recvb 0 5 7 with sampled := true }).rxdata ≠ (runningAt .recvb 0 5 7).rxdata := by decide

/-- An idle state and a running one that keep the invariant, and step. -/
theorem witness_StepKeepsInvariant :
    (demo.Inv ∧ step demo = .next (after demo)) ∧
    (ticks 2 (issued .rbit demo)).Inv ∧
    step (ticks 2 (issued .rbit demo)) = .next (after (ticks 2 (issued .rbit demo))) := by
  refine ⟨⟨witness_idle_inv.1.1, rfl⟩, ?_, rfl⟩
  unfold State.Inv State.portsWf; decide

theorem witness_ConfigurationNeverChanges : step demo = .next (after demo) := rfl

/-- A step that drives the pin, a bit that is not the block's, and `OUT[PIN]` 0. -/
theorem witness_OtherGpioBitsUntouched :
    step (runningAt .rbit 0 0 0) = .next (after (runningAt .rbit 0 0 0)) ∧
    0 ≠ (runningAt .rbit 0 0 0).cfg.pin ∧ 2 ≠ (runningAt .rbit 0 0 0).cfg.pin ∧
    (runningAt .rbit 0 0 0).drv = false := ⟨rfl, by decide, by decide, by decide⟩

theorem witness_TraceOnlyGrows :
    step (runningAt .rbit 0 0 0) = .next (after (runningAt .rbit 0 0 0)) := rfl

/-- `CRC` changed by hardware reset and by each of the three operations. -/
theorem witness_OnlyCrcOperationsWriteCrc :
    step (demoWith (.hwReset 1000)) = .next (after (demoWith (.hwReset 1000))) ∧
    (after (demoWith (.hwReset 1000))).crc ≠ demo.crc ∧ (after (demoWith (.regWrite 0 0x0800))).crc ≠ demo.crc ∧
    (after (demoWith (.regWrite 0 0x0901))).crc ≠ demo.crc ∧
    (after (demoWith (.regWrite 0 0x0A01))).crc ≠ demo.crc := ⟨rfl, by decide⟩

/-- Each result changed, in a step that is no hardware reset. -/
theorem witness_OnlyCompletionsWriteResults :
    step (runningAt .lreset 0 6 0) = .next (after (runningAt .lreset 0 6 0)) ∧
    (∀ e rest, (runningAt .lreset 0 6 0).inputs ≠ .hwReset e :: rest) ∧
    (after (runningAt .lreset 0 6 0)).presence ≠ (runningAt .lreset 0 6 0).presence ∧
    (after { runningAt .rbit 0 5 0 with sampled := true }).rxbit ≠ (runningAt .rbit 0 5 0).rxbit ∧
    (after { runningAt .recvb 0 5 7 with sampled := true }).rxdata ≠ (runningAt .recvb 0 5 7).rxdata :=
  ⟨rfl, by simp [runningAt, demo, idleWith], by decide, by decide, by decide⟩

/-- Each flag set and cleared, and `SDM` changed. -/
theorem witness_OnlyTheseEventsMoveStickyFlags :
    step (demoWith (.regWrite 0 0xFFFF)) = .next (after (demoWith (.regWrite 0 0xFFFF))) ∧
    (demo.ill = false ∧ (after (demoWith (.regWrite 0 0xFFFF))).ill = true) ∧
    (demo.ovr = false ∧ (after (busyWith (.regWrite 0 0x0100))).ovr = true) ∧
    (after { demoWith (.regWrite 1 0x0008) with ill := true }).ill = false ∧
    (after { demoWith (.regWrite 1 0x0010) with ovr := true }).ovr = false ∧
    (after (demoWith (.regWrite 4 0x0001))).sdm ≠ demo.sdm :=
  ⟨rfl, by decide, by decide, by decide, by decide, by decide⟩

theorem witness_HostAccessDisturbsNothing :
    ((busyWith (.regRead 1)).busy = true ∧ (busyWith (.regRead 1)).inputs = .regRead 1 :: []) ∧
    ((busyWith (.regWrite 0 0xFFFF)).busy = true ∧
      (busyWith (.regWrite 0 0xFFFF)).inputs = .regWrite 0 0xFFFF :: []) := by decide

/-- Two different states that agree but for the flags. -/
theorem witness_FlagsDoNotInfluence :
    demo.withoutFlags = ({ demo with ill := true, ovr := true, sdm := true } : State).withoutFlags ∧
    demo ≠ { demo with ill := true, ovr := true, sdm := true } := by decide

/-- Two different states that agree but for the line's answers. -/
theorem witness_LineDoesNotInfluenceControl :
    (runningAt .recvb 0 4 3).withoutLine =
      ({ runningAt .recvb 0 4 3 with answers := [false], sampled := true, rxacc := 0xFF } : State).withoutLine ∧
    runningAt .recvb 0 4 3 ≠
      { runningAt .recvb 0 4 3 with answers := [false], sampled := true, rxacc := 0xFF } := by decide

/-- A read of each register; and a move that stays busy. -/
theorem witness_RegisterReadValues :
    (∀ off : Fin 8, (busyWith (.regRead off)).inputs = .regRead off :: []) ∧
    (tick (runningAt .recvb 0 5 6)).busy = true := by decide

theorem witness_StatusWriteClearsStickyFlags :
    (demoWith (.regWrite 1 0x0018)).inputs = .regWrite 1 0x0018 :: [] := by decide

theorem witness_CtrlWriteStoresSdm :
    (demoWith (.regWrite 4 0xFFFF)).inputs = .regWrite 4 0xFFFF :: [] := by decide

/-- A write to each register that ignores it. -/
theorem witness_ReadOnlyWriteIgnored :
    ∀ off ∈ [(2 : Fin 8), 3, 5, 6, 7],
      (off = 2 ∨ off = 3 ∨ off = 5 ∨ off = 6 ∨ off = 7) ∧
      (demoWith (.regWrite off 0xFFFF)).inputs = .regWrite off 0xFFFF :: [] := by decide

theorem witness_LaunchState : ∀ off ∈ [(0 : Fin 8), 1, 2, 3, 4, 6, 7], off ≠ 5 := by decide

/-- Hardware reset at a primitive that takes no time, inside a delay and while idle; and an operation that ends, by
reset and by its last primitive. -/
theorem witness_HardwareResetAtAnyTime :
    ((busyWith (.hwReset 1000)).inputs = .hwReset 1000 :: [] ∧
      (busyWith (.hwReset 1000)).seq = .running .lreset 0 3 0 ∧
      ∀ d, (slotPrims .lreset 0 (busyWith (.hwReset 1000)))[3]? ≠ some (.delay d)) ∧
    ((lowWith 1000).inputs = .hwReset 1000 :: [] ∧ (lowWith 1000).seq = .running .lreset 0 2 0 ∧
      (slotPrims .lreset 0 (lowWith 1000))[2]? = some (.delay 480000)) ∧
    ((demoWith (.hwReset 1000)).inputs = .hwReset 1000 :: [] ∧ (demoWith (.hwReset 1000)).busy = false) ∧
    (step (busyWith (.hwReset 1000)) = .next (after (busyWith (.hwReset 1000))) ∧
      (after (busyWith (.hwReset 1000))).busy = false) ∧
    ((runningAt .lreset 0 6 0).seq = .running .lreset 0 6 0 ∧
      step (runningAt .lreset 0 6 0) = .next (after (runningAt .lreset 0 6 0)) ∧
      (after (runningAt .lreset 0 6 0)).busy = false) :=
  ⟨⟨rfl, rfl, by simp [slotPrims, lresetPrims]⟩, ⟨rfl, rfl, by decide⟩, ⟨rfl, rfl⟩, ⟨rfl, rfl⟩, ⟨rfl, rfl, by decide⟩⟩

/-- The ends of the low, and an instant inside it. -/
theorem witness_ResetShortensTheLowPulse :
    (demo.Inv ∧ demo.busy = false) ∧ 0 ≤ demo.cfg.timing.rstL ∧ 1000 ≤ demo.cfg.timing.rstL ∧
    480000 ≤ demo.cfg.timing.rstL := ⟨witness_idle_inv.1, by decide⟩

theorem witness_DriveAndReleaseMoveOneBit : demo.portsWf ∧ 0 ≠ demo.cfg.pin ∧ 2 ≠ demo.cfg.pin := by
  unfold State.portsWf; decide

/-- The first and the last position, equal and different. -/
theorem witness_RomBitStoreChangesOnePosition :
    (List.replicate 8 (0 : Byte)).length = 8 ∧ 1 ≤ 1 ∧ 1 ≤ 64 ∧ 64 ≤ 64 := by decide

/-- A bus with the one code of V-CRC-5: what its device answers at a position is the bit and its complement. -/
def oneDevice (sent : List Bool) : Bool × Bool :=
  (romBit [0x28, 0x11, 0x22, 0x33, 0x44, 0x55, 0x66, 0x56] (sent.length + 1),
    !romBit [0x28, 0x11, 0x22, 0x33, 0x44, 0x55, 0x66, 0x56] (sent.length + 1))

/-- A session before its first search. -/
def freshSession : Session := ⟨0, 0, false, List.replicate 8 0, List.replicate 9 0⟩

/-- A search that finds (program P5), and one that finds nothing because no device is present. -/
theorem witness_SearchFindsOnlyValidCodes :
    (search true oneDevice freshSession).2 = true ∧ (search false oneDevice freshSession).2 = false := by
  decide +kernel

end Sys2Proof.Tests
end

section
/-! SUPPORT. The sequencer over a whole slot: performing the slot's primitives one tick at a time is performing the
list, and then moving on (rule R36). -/

namespace Sys2Proof.Machine

/-- Perform a list of primitives, first one first (rule R36). -/
def performAll (ps : List Prim) (s : State) : State := ps.foldl (fun u p => perform p u) s

@[simp] theorem performAll_nil (s : State) : performAll [] s = s := rfl

@[simp] theorem performAll_cons (p : Prim) (ps : List Prim) (s : State) :
    performAll (p :: ps) s = performAll ps (perform p s) := rfl

theorem performAll_snoc (ps : List Prim) (p : Prim) (s : State) :
    performAll (ps ++ [p]) s = perform p (performAll ps s) := by
  simp [performAll]

/-- No list of primitives touches more than one primitive does (`perform_frame`). -/
theorem performAll_frame (ps : List Prim) (s : State) :
    performAll ps s =
      { s with dirPort := (performAll ps s).dirPort, trace := (performAll ps s).trace,
               sampled := (performAll ps s).sampled, answers := (performAll ps s).answers,
               draws := (performAll ps s).draws } := by
  induction ps generalizing s with
  | nil => rfl
  | cons p ps ih => rw [performAll_cons, ih, perform_frame]

/-- Performing primitives does not change the list they come from: it is read from the configuration and `txsh`. -/
theorem slotPrims_performAll (op : LineOp) (arg : Byte) (ps : List Prim) (s : State) (q : Seq) :
    slotPrims op arg { performAll ps s with seq := q } = slotPrims op arg s := by
  rw [performAll_frame]
  cases op <;> rfl

/-- A primitive does not look at the sequencer. -/
theorem perform_withSeq (p : Prim) (s : State) (q : Seq) :
    perform p { s with seq := q } = { perform p s with seq := q } := by
  cases p <;> rfl

/-- Moving on overwrites the sequencer without looking at it. -/
theorem advance_withSeq (op : LineOp) (arg : Byte) (k b len : Nat) (s : State) (q : Seq) :
    advance op arg k b len { s with seq := q } = advance op arg k b len s := by
  unfold advance
  split
  · rfl
  · cases op <;> rfl

/-- One move at primitive `k` of a slot whose first `k` primitives have been performed. -/
theorem tick_performAll {s : State} {op : LineOp} {arg : Byte} {k : Nat} (b : Nat)
    (hk : k < (slotPrims op arg s).length) :
    tick { performAll ((slotPrims op arg s).take k) s with seq := .running op arg k b } =
      advance op arg k b (slotPrims op arg s).length (performAll ((slotPrims op arg s).take (k + 1)) s) := by
  rw [tick_running rfl, slotPrims_performAll, performAt_eq (List.getElem?_eq_getElem hk), perform_withSeq,
    advance_withSeq, ← performAll_snoc, List.take_append_getElem]

/-- Inside a slot, `k` moves from its beginning perform the first `k` primitives of its list (rule R36). -/
theorem ticks_inside_slot {s : State} {op : LineOp} {arg : Byte} {k : Nat} (b : Nat)
    (hk : k < (slotPrims op arg s).length) :
    ticks k { s with seq := .running op arg 0 b } =
      { performAll ((slotPrims op arg s).take k) s with seq := .running op arg k b } := by
  induction k with
  | zero => rfl
  | succ k ih =>
    rw [ticks_add k 1, ih (by omega), ticks_succ, ticks_zero, tick_performAll b (by omega), advance, if_pos hk]

/-- The moves of one whole slot perform its primitives in order, and the last of them moves the sequencer on
(rule R36). -/
theorem ticks_slot {s : State} {op : LineOp} {arg : Byte} {n : Nat} (b : Nat)
    (hn : (slotPrims op arg s).length = n + 1) :
    ticks (n + 1) { s with seq := .running op arg 0 b } =
      advance op arg n b (n + 1) (performAll (slotPrims op arg s) s) := by
  rw [ticks_add n 1, ticks_inside_slot b (by omega), ticks_succ, ticks_zero, tick_performAll b (by omega), hn,
    List.take_of_length_le hn.le]

/-- An operation of one slot performs its primitives and completes (rules R36, R98). -/
theorem ticks_single_slot {s : State} {op : LineOp} {arg : Byte} {n : Nat}
    (hn : (slotPrims op arg s).length = n + 1) (hop : slotCount op = 1) :
    ticks (n + 1) { s with seq := .running op arg 0 0 } =
      complete op (slotEnd op (performAll (slotPrims op arg s) s)) := by
  rw [ticks_slot 0 hn, advance, if_neg (by omega), if_neg (by omega)]

end Sys2Proof.Machine
end

section
/-! SUPPORT. What the primitive lists of the line operations do to a released line: a low pulse, and in LRESET and
RBIT a sample after it (rules R123, R127, R130). -/

namespace Sys2Proof.Machine

/-- A drive, a delay and a release leave a released pin released and every other bit of `DIR` as it was: only the
trace has grown (rules R15, R121, R122). -/
theorem release_delay_driveLow {s : State} (hd : s.dir = false) (t : Nat) :
    release (delay t (driveLow s)) =
      { s with trace := s.trace ++ ([.driveLow] ++ waitEvents t ++ [.release]) } := by
  have hport : gpioClear (gpioSet s.dirPort s.cfg.pin) s.cfg.pin = s.dirPort := gpioClear_gpioSet s.dirPort hd
  simp [release, delay, driveLow, hport]

/-- The sample of a released line is what the environment shows (rules R15, R66). -/
theorem sample_released {s : State} (hd : s.dir = false) :
    sample s =
      { s with sampled := s.released, trace := s.trace ++ [.sample s.released],
               answers := s.answers.tail, draws := s.draws + 1 } := by
  simp [sample, lineLevel_released hd]

/-- A write slot on a released line only lengthens the trace (rule R127). -/
theorem performAll_writeSlot {s : State} (hd : s.dir = false) (T : Timing) (b : Bool) :
    performAll (writeSlot T b) s = { s with trace := s.trace ++ writeEvents T b } := by
  simp only [writeSlot, performAll_cons, performAll_nil, perform, release_delay_driveLow hd]
  simp [delay, writeEvents]

/-- A low pulse of `low`, a sample `settle` after it, and a recovery: the shape LRESET and RBIT share (rules R123,
R130). -/
def sampledPulse (low settle recovery : Nat) : List Prim :=
  [.driveLow, .delay low, .release, .delay settle, .sample, .delay recovery]

theorem readSlot_eq_sampledPulse (T : Timing) : readSlot T = sampledPulse T.rL T.rS T.rR := rfl

theorem lresetPrims_eq_sampledPulse (T : Timing) :
    lresetPrims T = .delay T.rstPre :: sampledPulse T.rstL T.pds T.rstRec := rfl

/-- A sampled pulse on a released line takes one sample, of the level the environment shows after the settling
delay. -/
theorem performAll_sampledPulse {s : State} (hd : s.dir = false) (low settle recovery : Nat) :
    let before := [.driveLow] ++ waitEvents low ++ [.release] ++ waitEvents settle
    let v := s.levelAfter (s.trace ++ before)
    performAll (sampledPulse low settle recovery) s =
      { s with sampled := v, answers := s.answers.tail, draws := s.draws + 1,
               trace := s.trace ++ (before ++ [.sample v] ++ waitEvents recovery) } := by
  simp only [sampledPulse, performAll_cons, performAll_nil, perform, release_delay_driveLow hd]
  rw [sample_released]
  · simp [delay, State.levelAfter, State.released]
  · exact hd

end Sys2Proof.Machine
end

section
/-! PROOFS. LRESET, WBIT and RBIT from issue to completion (40_line_ops.md). -/

namespace Sys2Proof.Machine

/-- What issue makes of an idle block (rule R98). -/
theorem exec_idle {s : State} (hb : s.busy = false) (i : Instr) : exec i s = .next (accepted s i) := by
  rw [exec_eq_issue, issue_idle hb]

/-- The bit operand survives its way through the `arg` byte (rules R92, R93). -/
@[simp] theorem bitOperand_bitArg (b : Bool) : bitOperand (bitArg b) = b := by
  cases b <;> decide

/-- Settles O11: the seven primitives are a delay and a sampled pulse on a released line. -/
theorem lresetRunsToCompletion : Obligations.LresetRunsToCompletion := by
  refine ⟨rfl, by decide, fun s hinv hb => ⟨exec_idle hb .lreset, ?_⟩⟩
  have hidle := busy_eq_false_iff.mp hb
  have hd : (delay s.cfg.timing.rstPre s).dir = false := by simpa using inv_idle_released hinv hb
  rw [ticks_single_slot rfl rfl]
  simp only [slotPrims, slotEnd, complete, lresetPrims_eq_sampledPulse, performAll_cons, perform]
  rw [performAll_sampledPulse hd]
  simp [lresetComplete, presenceOf, hidle, delay, State.levelAfter]

/-- Settles O12: the four primitives are one write slot on a released line. -/
theorem wbitRunsToCompletion : Obligations.WbitRunsToCompletion := by
  refine ⟨fun b => by cases b <;> decide, fun b s hinv hb => ⟨exec_idle hb (.wbit b), ?_⟩⟩
  have hidle := busy_eq_false_iff.mp hb
  have hd := inv_idle_released hinv hb
  have hslot : slotPrims .wbit (bitArg b) s = writeSlot s.cfg.timing b := by simp [slotPrims, wbitPrims]
  rw [← bitArg, ticks_single_slot rfl rfl, hslot, slotEnd, performAll_writeSlot hd]
  simp [complete, wbitComplete, hidle, writeEvents]

/-- Settles O13: the six primitives are a sampled pulse on a released line. -/
theorem rbitRunsToCompletion : Obligations.RbitRunsToCompletion := by
  refine ⟨rfl, by decide, fun s hinv hb => ⟨exec_idle hb .rbit, ?_⟩⟩
  have hidle := busy_eq_false_iff.mp hb
  have hd := inv_idle_released hinv hb
  rw [ticks_single_slot rfl rfl]
  simp only [slotPrims, slotEnd, complete, rbitPrims, readSlot_eq_sampledPulse]
  rw [performAll_sampledPulse hd]
  simp [rbitComplete, hidle]

end Sys2Proof.Machine
end

section
/-! SUPPORT. The first `n` slots of a byte operation, by induction on `n` over what one slot does
(`ticks_sendb_slot`, `ticks_recvb_slot`; rules R151, R155). -/

namespace Sys2Proof.Machine

/-- `n` slots of SENDB write the low `n` bits of `txsh`, bit 0 first, and shift them out (rule R151). -/
theorem ticks_sendb_slots {s : State} (hd : s.dir = false) (arg : Byte) {n : Nat} (hn : n ≤ 8) :
    ticks (4 * n) { s with seq := .running .sendb arg 0 0 } =
      { s with seq := if n < 8 then .running .sendb arg 0 n else .idle,
               txsh := s.txsh >>> n,
               trace := s.trace ++
                 ((List.range n).map fun i => s.txsh.getLsbD i).flatMap (writeEvents s.cfg.timing) } := by
  induction n with
  | zero => simp
  | succ n ih =>
    rw [Nat.mul_succ, ticks_add, ih (by omega), ticks_sendb_slot _ arg n]
    · simp [List.range_succ, BitVec.shiftRight_add]
    · exact if_pos hn
    · exact hd

/-- One more sample keeps to the pending levels, if it is the next of them where one is left. -/
theorem take_succ_isPrefix_snoc {α : Type} {answers vs : List α} {x : α} (hpre : answers.take vs.length <+: vs)
    (hx : ∀ y ys, answers.drop vs.length = y :: ys → x = y) :
    answers.take (vs.length + 1) <+: vs ++ [x] := by
  cases hrest : answers.drop vs.length with
  | nil =>
    have hall : answers.length ≤ vs.length := List.drop_eq_nil_iff.mp hrest
    rw [List.take_of_length_le hall] at hpre
    rw [List.take_of_length_le (by omega)]
    exact hpre.trans (List.prefix_append vs [x])
  | cons y ys =>
    have hleft : vs.length < answers.length := List.length_lt_of_drop_ne_nil (by simp [hrest])
    have htake : answers.take vs.length = vs := hpre.eq_of_length (by simp; omega)
    rw [hx y ys hrest, List.take_add, htake, hrest]
    exact List.prefix_rfl

/-- `n` slots of RECVB take `n` samples, the pending levels as far as there are any, and shift each of them into the
accumulator; the eighth also writes `RXDATA` (rule R155). -/
theorem ticks_recvb_slots {s : State} (hd : s.dir = false) (arg : Byte) {n : Nat} (hn : n ≤ 8) :
    ∃ vs : List Bool, vs.length = n ∧ s.answers.take n <+: vs ∧
      ticks (6 * n) { s with seq := .running .recvb arg 0 0 } =
        { s with seq := if n < 8 then .running .recvb arg 0 n else .idle,
                 rxacc := vs.foldl rxShift s.rxacc,
                 rxdata := if n < 8 then s.rxdata else vs.foldl rxShift s.rxacc,
                 sampled := vs.getLastD s.sampled, answers := s.answers.drop n, draws := s.draws + n,
                 trace := s.trace ++ vs.flatMap (readEvents s.cfg.timing) } := by
  induction n with
  | zero => exact ⟨[], rfl, List.nil_prefix, by simp⟩
  | succ n ih =>
    obtain ⟨vs, rfl, hpre, hticks⟩ := ih (by omega)
    obtain ⟨x, hx, hslot⟩ := ticks_recvb_slot (ticks (6 * vs.length) { s with seq := .running .recvb arg 0 0 }) arg
      vs.length (by rw [hticks]; exact if_pos hn) (by rw [hticks]; exact hd)
    rw [hticks] at hx hslot
    refine ⟨vs ++ [x], by simp, take_succ_isPrefix_snoc hpre hx, ?_⟩
    rw [Nat.mul_succ, ticks_add, hticks, hslot]
    simp [Nat.lt_of_succ_le hn, Nat.add_assoc]

end Sys2Proof.Machine
end

section
/-! PROOFS. SENDB and RECVB from issue to completion (41_byte_ops.md). -/

namespace Sys2Proof.Machine

/-- Settles O14: eight write slots on a released line, the last of which completes the operation. -/
theorem sendbRunsToCompletion : Obligations.SendbRunsToCompletion := by
  refine ⟨fun v => ⟨rfl, ?_⟩, fun v s hinv hb => ⟨exec_idle hb (.sendb v), ?_⟩⟩
  · rw [encode_eq_word, decode_word]
    rfl
  · have hidle := busy_eq_false_iff.mp hb
    have hd := inv_idle_released hinv hb
    have hout : v >>> 8 = 0 := BitVec.ushiftRight_eq_zero le_rfl
    refine (ticks_sendb_slots (s := { s with txsh := v }) hd v (n := 8) le_rfl).trans ?_
    simp [hidle, hout, List.range_succ]

/-- Settles O15: eight read slots on a released line, the last of which completes the operation. -/
theorem recvbRunsToCompletion : Obligations.RecvbRunsToCompletion := by
  refine ⟨rfl, by decide, fun s hinv hb => ⟨exec_idle hb .recvb, ?_⟩⟩
  have hidle := busy_eq_false_iff.mp hb
  have hshift : rxShift = fun (acc : Byte) v => if v = true then acc >>> 1 ||| 0x80 else acc >>> 1 := rfl
  obtain ⟨vs, hlen, hpre, hticks⟩ := ticks_recvb_slots (inv_idle_released hinv hb) noArg (n := 8) le_rfl
  refine ⟨vs, hlen, hpre, hticks.trans ?_⟩
  simp [hidle, hshift, hlen, List.getLast?_eq_getElem?]

end Sys2Proof.Machine
end

section
/-! PROOFS. The CRC operations, each complete at issue (42_crc8.md). -/

namespace Sys2Proof.Machine

/-- Settles O19: an idle block accepts CRCCLR, whose whole effect is the write to `CRC` (rules R98, R171). -/
theorem crcclrResult : Obligations.CrcclrResult :=
  ⟨rfl, by decide, fun _ hb => exec_idle hb .crcclr⟩

end Sys2Proof.Machine
end

section
/-! SUPPORT. What the registers answer to a read and do with a write, one lemma for each (rules R25, R191 to R194), and
what an operation that stays running leaves of the result fields. -/

namespace Sys2Proof.Machine

/-! ## The words read -/

/-- Bit `i` of a flag word is the flag at its own place and 0 elsewhere. -/
theorem flagBit_getLsbD {k : Nat} (hk : k < 16) (b : Bool) (i : Nat) :
    (flagBit k b).getLsbD i = (b && decide (k = i)) := by
  cases b <;> simp [flagBit, BitVec.getLsbD_twoPow, hk]

theorem flagBit_zero_eq_ite (b : Bool) : flagBit 0 b = if b = true then 1 else 0 := rfl

theorem profileBit_eq_true_iff (p : Profile) : profileBit p = true ↔ p = .fast := by
  cases p <;> decide

/-- `STATUS` bit by bit (rules R27, R191). -/
theorem statusWord_getLsbD (s : State) (i : Nat) :
    s.statusWord.getLsbD i =
      (s.busy && decide (0 = i) || s.presence && decide (1 = i) || s.rxbit && decide (2 = i) ||
        s.ill && decide (3 = i) || s.ovr && decide (4 = i)) := by
  simp [State.statusWord, flagBit_getLsbD]

theorem statusWord_getLsbD_above (s : State) {i : Nat} (hi : 5 ≤ i) : s.statusWord.getLsbD i = false := by
  have hne {j : Nat} (hj : j < 5) : j ≠ i := by omega
  simp [statusWord_getLsbD, hne]

/-! ## Reads and writes by offset -/

@[simp] theorem regRead_cmd (s : State) : regRead s 0 = 0 := rfl
@[simp] theorem regRead_status (s : State) : regRead s 1 = s.statusWord := rfl
@[simp] theorem regRead_rxdata (s : State) : regRead s 2 = s.rxdata.setWidth 16 := rfl
@[simp] theorem regRead_crc (s : State) : regRead s 3 = s.crc.setWidth 16 := rfl
@[simp] theorem regRead_ctrl (s : State) : regRead s 4 = flagBit 0 s.sdm := rfl
@[simp] theorem regRead_config (s : State) : regRead s 5 = flagBit 0 (profileBit s.cfg.profile) := rfl
@[simp] theorem regRead_reserved6 (s : State) : regRead s 6 = 0 := rfl
@[simp] theorem regRead_reserved7 (s : State) : regRead s 7 = 0 := rfl

/-- A write to `CTRL` (rule R193). -/
theorem regWrite_ctrl (w : Word) (s : State) : regWrite 4 w s = { s with sdm := w.getLsbD 0 } := rfl

/-- A write to a read-only or reserved register (rule R194). -/
theorem regWrite_ignored {off : Fin 8} (hoff : off = 2 ∨ off = 3 ∨ off = 5 ∨ off = 6 ∨ off = 7) (w : Word)
    (s : State) : regWrite off w s = s := by
  obtain rfl | rfl | rfl | rfl | rfl := hoff <;> rfl

/-! ## The result fields of a running operation -/

/-- A completed operation is no longer running (rule R28). -/
@[simp] theorem complete_busy (op : LineOp) (s : State) : (complete op s).busy = false := by
  cases op <;> rfl

/-- Performing a primitive writes no result field. -/
theorem performAt_results (ps : List Prim) (k : Nat) (s : State) :
    (performAt ps k s).presence = s.presence ∧ (performAt ps k s).rxbit = s.rxbit ∧
      (performAt ps k s).rxdata = s.rxdata := by
  rcases performAt_cases ps k s with ⟨p, _, h⟩ | ⟨_, h⟩
  · rw [h, perform_frame]
    exact ⟨rfl, rfl, rfl⟩
  · rw [h]
    exact ⟨rfl, rfl, rfl⟩

/-- The end of a slot writes no result field (rules R151, R155). -/
theorem slotEnd_results (op : LineOp) (s : State) :
    (slotEnd op s).presence = s.presence ∧ (slotEnd op s).rxbit = s.rxbit ∧ (slotEnd op s).rxdata = s.rxdata := by
  cases op <;> exact ⟨rfl, rfl, rfl⟩

/-- Moving on writes a result field only by completing the operation (rule R98). -/
theorem advance_results_of_busy {op : LineOp} {arg : Byte} {k b len : Nat} {s : State}
    (hbusy : (advance op arg k b len s).busy = true) :
    (advance op arg k b len s).presence = s.presence ∧ (advance op arg k b len s).rxbit = s.rxbit ∧
      (advance op arg k b len s).rxdata = s.rxdata := by
  rcases advance_cases op arg k b len s with ⟨_, h⟩ | ⟨_, _, h⟩ | ⟨_, _, h⟩
  · rw [h]
    exact ⟨rfl, rfl, rfl⟩
  · rw [h]
    exact slotEnd_results op s
  · simp [h] at hbusy

/-- While an operation stays running, `PRESENCE`, `RXBIT` and `RXDATA` hold the results of earlier operations
(rule R191). -/
theorem tick_results_of_busy {s : State} (hbusy : (tick s).busy = true) :
    (tick s).presence = s.presence ∧ (tick s).rxbit = s.rxbit ∧ (tick s).rxdata = s.rxdata := by
  cases hs : s.seq with
  | idle =>
    rw [tick_idle hs]
    exact ⟨rfl, rfl, rfl⟩
  | running op arg k b =>
    rw [tick_running hs] at hbusy ⊢
    obtain ⟨hp, hb, hd⟩ := advance_results_of_busy hbusy
    obtain ⟨hp', hb', hd'⟩ := performAt_results (slotPrims op arg s) k s
    exact ⟨hp.trans hp', hb.trans hb', hd.trans hd'⟩

end Sys2Proof.Machine
end

section
/-! PROOFS. The host's reads and writes (43_register_ops.md). -/

namespace Sys2Proof.Machine

/-- Settles O46: the value is `regRead` of the state before the step, taken offset by offset. -/
theorem registerReadValues : Obligations.RegisterReadValues := by
  refine ⟨fun s hbusy => tick_results_of_busy hbusy, fun s off rest h => ⟨regRead s off, step_regRead h, ?_⟩⟩
  refine ⟨?cmd, ?status, ?rxdata, ?crc, ?ctrl, ?config, ?reserved6, ?reserved7⟩ <;> rintro rfl
  case cmd => exact regRead_cmd s
  case status =>
    rw [regRead_status]
    refine ⟨?_, ?_, ?_, ?_, ?_, fun k hk => statusWord_getLsbD_above s hk⟩ <;> rw [statusWord_getLsbD] <;> simp
  case rxdata => rw [regRead_rxdata, BitVec.toNat_setWidth_of_le (by decide)]
  case crc => rw [regRead_crc, BitVec.toNat_setWidth_of_le (by decide)]
  case ctrl => rw [regRead_ctrl, flagBit_zero_eq_ite]
  case config => simp only [regRead_config, flagBit_zero_eq_ite, profileBit_eq_true_iff]
  case reserved6 => exact regRead_reserved6 s
  case reserved7 => exact regRead_reserved7 s

/-- Settles O48: the write reaches `CTRL`, whatever the sequencer is at. -/
theorem ctrlWriteStoresSdm : Obligations.CtrlWriteStoresSdm := by
  intro s w rest h
  rw [step_register h (by decide), regWrite_ctrl]

/-- Settles O49: none of the five offsets is `CMD`, and their registers ignore the write. -/
theorem readOnlyWriteIgnored : Obligations.ReadOnlyWriteIgnored := by
  intro s off w rest hoff h
  have hcmd : off ≠ 0 := by
    rintro rfl
    exact absurd hoff (by decide)
  rw [step_register h hcmd, regWrite_ignored hoff]

end Sys2Proof.Machine
end

section
/-! SUPPORT. The decoder through the two fields of a word: it inverts the encoder, and a row of the opcode map is an
`op` value with the operands its format admits (rules R90 to R96). -/

namespace Sys2Proof

/-- A word is made of its two fields (rule R90). -/
theorem word_of_fields (w : Word) : (Command.mk (opField w) (argField w)).word = w :=
  BitVec.extractLsb'_append_extractLsb' (w := 8)

/-- The fields of a word are determined by it (rule R90). -/
theorem command_word_inj {c d : Command} : c.word = d.word ↔ c = d := by
  refine ⟨fun h => ?_, congrArg _⟩
  have hop := congrArg opField h
  have harg := congrArg argField h
  rw [opField_word, opField_word] at hop
  rw [argField_word, argField_word] at harg
  cases c; cases d
  exact congrArg₂ _ hop harg

/-- The map's row for an operation's `op` value gives the operation back (rule R94). -/
theorem decodeFields_command (i : Instr) : decodeFields i.command.op i.command.arg = .operation i := by
  cases i with
  | wbit b => cases b <;> rfl
  | lreset => rfl
  | rbit => rfl
  | sendb v => rfl
  | recvb => rfl
  | crcclr => rfl
  | crcb v => rfl
  | crct v => rfl

/-- The decoder inverts the encoder (rule R95). -/
theorem decode_encode (i : Instr) : decode (encode i) = .operation i := by
  rw [encode_eq_word, decode_word, decodeFields_command]

theorem decodeN_eq_operation {i j : Instr} {arg : Byte} (h : decodeN i arg = .operation j) : arg = 0 ∧ j = i := by
  unfold decodeN at h
  split at h
  · exact ⟨‹_›, by simpa using h.symm⟩
  · cases h

/-- A byte whose upper seven bits are zero is its own bit 0 (rule R92, format B). -/
theorem eq_ite_of_extractLsb'_eq_zero :
    ∀ arg : Byte, arg.extractLsb' 1 7 = 0 → arg = if arg.getLsbD 0 then 1 else 0 := by
  decide

theorem decodeB_eq_operation {i : Bool → Instr} {j : Instr} {arg : Byte} (h : decodeB i arg = .operation j) :
    ∃ b : Bool, arg = (if b then 1 else 0) ∧ j = i b := by
  unfold decodeB at h
  split at h
  · exact ⟨arg.getLsbD 0, eq_ite_of_extractLsb'_eq_zero arg ‹_›, by simpa using h.symm⟩
  · cases h

theorem decodeY_eq_operation {i : Byte → Instr} {j : Instr} {arg : Byte} (h : decodeY i arg = .operation j) :
    j = i arg := by
  simpa [decodeY] using h.symm

/-- Fields that decode to an operation are that operation's fields (rules R92, R94). -/
theorem command_of_decodeFields {op arg : Byte} {i : Instr} (h : decodeFields op arg = .operation i) :
    i.command = ⟨op, arg⟩ := by
  unfold decodeFields at h
  split_ifs at h <;> subst_vars
  · obtain ⟨rfl, rfl⟩ := decodeN_eq_operation h; rfl
  · obtain ⟨b, rfl, rfl⟩ := decodeB_eq_operation h; rfl
  · obtain ⟨rfl, rfl⟩ := decodeN_eq_operation h; rfl
  · obtain rfl := decodeY_eq_operation h; rfl
  · obtain ⟨rfl, rfl⟩ := decodeN_eq_operation h; rfl
  · obtain ⟨rfl, rfl⟩ := decodeN_eq_operation h; rfl
  · obtain rfl := decodeY_eq_operation h; rfl
  · obtain rfl := decodeY_eq_operation h; rfl

/-- The encoder inverts the decoder on legal words. -/
theorem encode_of_decode {w : Word} {i : Instr} (h : decode w = .operation i) : encode i = w := by
  rw [encode_eq_word, command_of_decodeFields h, word_of_fields]

/-! ## The rows of the opcode map -/

/-- The bits of `arg` that a format requires to be zero (rule R92). -/
def Format.zeroMask : Format → Byte
  | .n => 0xFF
  | .b => 0xFE
  | .y => 0x00

/-- A format admits an operand exactly if its must-be-zero bits are zero (rule R92). -/
theorem admits_iff_zeroMask (f : Format) (arg : Byte) : f.admits arg = true ↔ arg &&& f.zeroMask = 0 := by
  cases f <;> revert arg <;> decide

/-- A row's mask holds the whole `op` field and the must-be-zero bits of the format (rules R92, R94). -/
theorem row_eq_fields (i : Instr) :
    i.row = ⟨(Command.mk i.command.op 0).word, (Command.mk 0xFF i.format.zeroMask).word⟩ := by
  cases i <;> simp only [Instr.row, Instr.command, Instr.format, Format.zeroMask] <;> decide

/-- The bitwise conjunction of two words goes field by field. -/
theorem word_and_word (c d : Command) : c.word &&& d.word = (Command.mk (c.op &&& d.op) (c.arg &&& d.arg)).word :=
  BitVec.and_append

/-- Selecting an operation's row is having its `op` value and an operand its format admits (rules R92, R94). -/
theorem selects_row_iff (i : Instr) (c : Command) :
    i.row.selects c.word = true ↔ c.op = i.command.op ∧ i.format.admits c.arg = true := by
  have hones : c.op &&& 0xFF = c.op := BitVec.and_allOnes
  rw [row_eq_fields, OpcodeRow.selects, beq_iff_eq, word_and_word, command_word_inj, Command.mk.injEq, hones,
    admits_iff_zeroMask]

theorem eq_zero_of_admits_n {arg : Byte} (h : Format.n.admits arg = true) : arg = 0 := by
  simpa [Format.admits] using h

/-- An operand the format of `i` admits belongs to an operation of `i`'s row (rule R94). -/
theorem exists_command_of_admits {i : Instr} {arg : Byte} (h : i.format.admits arg = true) :
    ∃ j : Instr, j.command = ⟨i.command.op, arg⟩ ∧ j.row = i.row := by
  cases i with
  | lreset => exact ⟨.lreset, by rw [eq_zero_of_admits_n h]; rfl, rfl⟩
  | wbit b =>
    obtain rfl | rfl : arg = 0 ∨ arg = 1 := by simpa [Instr.format, Format.admits] using h
    · exact ⟨.wbit false, rfl, rfl⟩
    · exact ⟨.wbit true, rfl, rfl⟩
  | rbit => exact ⟨.rbit, by rw [eq_zero_of_admits_n h]; rfl, rfl⟩
  | sendb v => exact ⟨.sendb arg, rfl, rfl⟩
  | recvb => exact ⟨.recvb, by rw [eq_zero_of_admits_n h]; rfl, rfl⟩
  | crcclr => exact ⟨.crcclr, by rw [eq_zero_of_admits_n h]; rfl, rfl⟩
  | crcb v => exact ⟨.crcb arg, rfl, rfl⟩
  | crct v => exact ⟨.crct arg, rfl, rfl⟩

/-- The operand of an operation is one its format admits (rule R92). -/
theorem admits_command_arg (i : Instr) : i.format.admits i.command.arg = true := by
  simpa [Instr.wellFormed, Command.wellFormed, formatOfOp_command] using instr_wellFormed i

/-- Each operation has its row in the map. -/
theorem row_mem_opcodeRows (i : Instr) : i.row ∈ opcodeRows := by
  cases i <;> simp [Instr.row, opcodeRows]

/-- Each row of the map is the row of an operation. -/
theorem exists_row_eq {r : OpcodeRow} (h : r ∈ opcodeRows) : ∃ i : Instr, i.row = r := by
  simp only [opcodeRows, List.mem_cons, List.not_mem_nil, or_false] at h
  obtain rfl | rfl | rfl | rfl | rfl | rfl | rfl | rfl := h
  exacts [⟨.lreset, rfl⟩, ⟨.wbit false, rfl⟩, ⟨.rbit, rfl⟩, ⟨.sendb 0, rfl⟩, ⟨.recvb, rfl⟩, ⟨.crcclr, rfl⟩,
    ⟨.crcb 0, rfl⟩, ⟨.crct 0, rfl⟩]

/-- A word that selects a row of the map decodes to an operation of that row (rules R94, R95). -/
theorem decode_of_selects {w : Word} {r : OpcodeRow} (hr : r ∈ opcodeRows) (hw : r.selects w = true) :
    ∃ i, decode w = .operation i ∧ i.row = r := by
  obtain ⟨i, rfl⟩ := exists_row_eq hr
  rw [← word_of_fields w, selects_row_iff] at hw
  obtain ⟨hop, harg⟩ := hw
  obtain ⟨j, hj, hrow⟩ := exists_command_of_admits harg
  have hword : encode j = w := by rw [encode_eq_word, hj, ← hop, word_of_fields]
  exact ⟨j, hword ▸ decode_encode j, hrow⟩

/-- A word that decodes selects the row of its operation (rules R94, R95). -/
theorem selects_of_decode {w : Word} {i : Instr} (h : decode w = .operation i) : i.row.selects w = true := by
  rw [← encode_of_decode h, encode_eq_word, selects_row_iff]
  exact ⟨rfl, admits_command_arg i⟩

/-! ## Illegal fields -/

/-- An `op` value of no row is illegal whatever the operand (rule R96). -/
theorem decodeFields_of_formatOfOp_none {op : Byte} (h : formatOfOp op = none) (arg : Byte) :
    decodeFields op arg = .illegal .unassignedOp := by
  unfold formatOfOp at h
  split_ifs at h
  simp only [decodeFields, if_false, *]

/-- A nonzero operand of a format N row is illegal (rules R92, R96). -/
theorem decodeN_of_ne_zero (i : Instr) {arg : Byte} (h : arg ≠ 0) : decodeN i arg = .illegal .mustBeZeroSet :=
  if_neg h

/-- A bit operand above bit 0 is illegal (rules R92, R96). -/
theorem decodeB_of_two_le (i : Bool → Instr) {arg : Byte} (h : 2 ≤ arg.toNat) :
    decodeB i arg = .illegal .mustBeZeroSet := by
  refine if_neg fun hzero => ?_
  have harg := eq_ite_of_extractLsb'_eq_zero arg hzero
  split at harg <;> simp [harg] at h

end Sys2Proof
end

section
/-! PROOFS. Encoding (30_encoding.md). -/

namespace Sys2Proof

/-- Settles O1: the encoder's word is made of the operation's fields, and the decoder reads them back row by row. -/
theorem decodeOfEncode : Obligations.DecodeOfEncode :=
  fun i _ => decode_encode i

/-- Settles O2: the fields that decode to an operation are its fields, and a word is made of its fields. -/
theorem encodeOfDecode : Obligations.EncodeOfDecode :=
  fun _ _ h => encode_of_decode h

/-- Settles O3: selecting a row is having its `op` value and an admitted operand, which an operation of the row has. -/
theorem decodeFollowsOpcodeMap : Obligations.DecodeFollowsOpcodeMap := by
  refine ⟨fun w i h => ⟨row_mem_opcodeRows i, selects_of_decode h⟩, fun w r hr hw => decode_of_selects hr hw,
    fun w hnone => ?_⟩
  cases hd : decode w with
  | illegal why => exact ⟨why, rfl⟩
  | operation i => simpa [selects_of_decode hd] using hnone i.row (row_mem_opcodeRows i)

/-- Settles O4: both rows are the row of the one operation the word decodes to. -/
theorem opcodeRowsDisjoint : Obligations.OpcodeRowsDisjoint := by
  intro w r₁ r₂ h₁ h₂ hw₁ hw₂
  obtain ⟨i, hi, rfl⟩ := decode_of_selects h₁ hw₁
  obtain ⟨j, hj, rfl⟩ := decode_of_selects h₂ hw₂
  obtain rfl : i = j := by simpa [hi] using hj
  rfl

/-- Settles O5: the three kinds of illegal fields, by the row the `op` value selects or fails to select. -/
theorem illegalWordsRefused : Obligations.IllegalWordsRefused := by
  have hnone : ∀ op : Byte, op = 0x00 ∨ op = 0x06 ∨ op = 0x07 ∨ 0x0B ≤ op.toNat → formatOfOp op = none := by decide
  refine ⟨fun w hop => decodeFields_of_formatOfOp_none (hnone _ hop) _, fun w hop harg => ?_, fun w hop harg => ?_⟩
  · rw [decode]
    rcases hop with hop | hop | hop | hop <;> rw [hop] <;> exact decodeN_of_ne_zero _ harg
  · rw [decode, hop]
    exact decodeB_of_two_le _ harg

/-- Settles O6: the nine words are the encoder's, and the decoder inverts it. -/
theorem specWordsDecode : Obligations.SpecWordsDecode :=
  ⟨decode_encode .lreset, decode_encode (.wbit false), decode_encode (.wbit true), decode_encode .rbit,
    decode_encode (.sendb 0xA5), decode_encode .recvb, decode_encode .crcclr, decode_encode (.crcb 0xFF),
    decode_encode (.crct 0x5E)⟩

end Sys2Proof
end

section
/-! SUPPORT. What one step does, as an inversion: the next state of a step is one of eight, and what each of the
block's larger actions leaves unchanged. -/

namespace Sys2Proof.Machine

/-! ## Frames -/

/-- What a move of the block touches, idle or busy (rule R36). -/
theorem tick_eq_frame (s : State) :
    tick s =
      { s with seq := (tick s).seq, presence := (tick s).presence, rxbit := (tick s).rxbit,
               rxdata := (tick s).rxdata, txsh := (tick s).txsh, rxacc := (tick s).rxacc,
               sampled := (tick s).sampled, dirPort := (tick s).dirPort, trace := (tick s).trace,
               answers := (tick s).answers, draws := (tick s).draws } := by
  cases hs : s.seq with
  | idle => rw [tick_idle hs]
  | running op arg k b => rw [tick_frame hs]

section
variable (s : State)

@[simp] theorem tick_ill : (tick s).ill = s.ill := by rw [tick_eq_frame]
@[simp] theorem tick_ovr : (tick s).ovr = s.ovr := by rw [tick_eq_frame]
@[simp] theorem tick_crc : (tick s).crc = s.crc := by rw [tick_eq_frame]
@[simp] theorem tick_sdm : (tick s).sdm = s.sdm := by rw [tick_eq_frame]
@[simp] theorem tick_outPort : (tick s).outPort = s.outPort := by rw [tick_eq_frame]
@[simp] theorem tick_cfg : (tick s).cfg = s.cfg := by rw [tick_eq_frame]

/-- What accepting an operation touches (rule R98). -/
theorem accepted_eq_frame (i : Instr) :
    accepted s i =
      { s with seq := (accepted s i).seq, txsh := (accepted s i).txsh, crc := (accepted s i).crc } := by
  cases i <;> rfl

@[simp] theorem accepted_presence (i : Instr) : (accepted s i).presence = s.presence := by rw [accepted_eq_frame]
@[simp] theorem accepted_rxbit (i : Instr) : (accepted s i).rxbit = s.rxbit := by rw [accepted_eq_frame]
@[simp] theorem accepted_ill (i : Instr) : (accepted s i).ill = s.ill := by rw [accepted_eq_frame]
@[simp] theorem accepted_ovr (i : Instr) : (accepted s i).ovr = s.ovr := by rw [accepted_eq_frame]
@[simp] theorem accepted_rxdata (i : Instr) : (accepted s i).rxdata = s.rxdata := by rw [accepted_eq_frame]
@[simp] theorem accepted_sdm (i : Instr) : (accepted s i).sdm = s.sdm := by rw [accepted_eq_frame]
@[simp] theorem accepted_dirPort (i : Instr) : (accepted s i).dirPort = s.dirPort := by rw [accepted_eq_frame]
@[simp] theorem accepted_outPort (i : Instr) : (accepted s i).outPort = s.outPort := by rw [accepted_eq_frame]
@[simp] theorem accepted_trace (i : Instr) : (accepted s i).trace = s.trace := by rw [accepted_eq_frame]
@[simp] theorem accepted_cfg (i : Instr) : (accepted s i).cfg = s.cfg := by rw [accepted_eq_frame]

/-- What a write to a register other than `CMD` touches (rules R192 to R194). -/
theorem regWrite_eq_frame (off : Fin 8) (w : Word) :
    regWrite off w s =
      { s with ill := (regWrite off w s).ill, ovr := (regWrite off w s).ovr, sdm := (regWrite off w s).sdm } := by
  unfold regWrite
  cases regAt off <;> rfl

end

/-- A write clears `ILL` at `STATUS`, where bit 3 is 1 (rules R192, R194). -/
@[simp] theorem regWrite_ill (off : Fin 8) (w : Word) (s : State) :
    (regWrite off w s).ill = (s.ill && !(decide (off = 1) && w.getLsbD 3)) := by
  fin_cases off <;> simp [regWrite, regAt]

/-- A write clears `OVR` at `STATUS`, where bit 4 is 1 (rules R192, R194). -/
@[simp] theorem regWrite_ovr (off : Fin 8) (w : Word) (s : State) :
    (regWrite off w s).ovr = (s.ovr && !(decide (off = 1) && w.getLsbD 4)) := by
  fin_cases off <;> simp [regWrite, regAt]

/-- A write stores bit 0 in `SDM` at `CTRL` (rules R193, R194). -/
@[simp] theorem regWrite_sdm (off : Fin 8) (w : Word) (s : State) :
    (regWrite off w s).sdm = if off = 4 then w.getLsbD 0 else s.sdm := by
  fin_cases off <;> simp [regWrite, regAt]

/-! ## Steps with `BUSY` known -/

/-- On an idle block a gap lets time pass (rule R282). -/
theorem step_pass_idle {s : State} {gap : Nat} {rest : List Input} (hin : s.inputs = .pass gap :: rest)
    (hb : s.busy = false) : step s = .next (delay gap { s with inputs := rest }) := by
  rw [step_pass hin, hostPass, if_neg]
  simpa [State.busy] using hb

/-- A running operation moves while the host lets time pass (rule R36). -/
theorem step_pass_busy {s : State} {gap : Nat} {rest : List Input} (hin : s.inputs = .pass gap :: rest)
    (hb : s.busy = true) : step s = .next (tick { s with inputs := rest }) := by
  rw [step_pass hin, hostPass, if_pos]
  exact hb

/-- The block moves: no move of the world is pending, or the host lets time pass while `BUSY` is 1. -/
theorem step_move {s : State} {rest : List Input}
    (hin : s.inputs = [] ∧ rest = [] ∨ s.busy = true ∧ ∃ gap, s.inputs = .pass gap :: rest) :
    step s = .next (tick { s with inputs := rest }) := by
  rcases hin with ⟨hnil, rfl⟩ | ⟨hb, gap, hpass⟩
  · rw [step_nil hnil, ← hnil]
  · exact step_pass_busy hpass hb

/-- An idle block accepts the operation written to `CMD` (rule R98). -/
theorem step_accepted {s : State} {w : Word} {rest : List Input} {i : Instr} (hin : s.inputs = .regWrite 0 w :: rest)
    (hb : s.busy = false) (hd : decode w = .operation i) :
    step s = .next (accepted { s with inputs := rest } i) := by
  rw [step_command hin hb hd]
  exact exec_idle (s := { s with inputs := rest }) hb i

/-! ## Inversion -/

/-- The next states of a step from `s`, each with what brings it about (rules R20, R73, R98, R190). -/
inductive StepEffect (s : State) : State → Prop
  /-- The block moves: no move of the world is pending, or the host lets time pass while `BUSY` is 1. -/
  | move {rest : List Input}
      (hin : s.inputs = [] ∧ rest = [] ∨ s.busy = true ∧ ∃ gap, s.inputs = .pass gap :: rest) :
      StepEffect s (tick { s with inputs := rest })
  /-- A gap on an idle block. -/
  | gap {t : Nat} {rest : List Input} (hin : s.inputs = .pass t :: rest) (hb : s.busy = false) :
      StepEffect s (delay t { s with inputs := rest })
  /-- A register read. -/
  | read {off : Fin 8} {rest : List Input} (hin : s.inputs = .regRead off :: rest) :
      StepEffect s (hostRead off { s with inputs := rest })
  /-- Hardware reset. -/
  | hwReset {e : Nat} {rest : List Input} (hin : s.inputs = .hwReset e :: rest) :
      StepEffect s (hardwareReset e { s with inputs := rest })
  /-- A write to a register other than `CMD`. -/
  | register {off : Fin 8} {w : Word} {rest : List Input} (hin : s.inputs = .regWrite off w :: rest) (hoff : off ≠ 0) :
      StepEffect s (regWrite off w { s with inputs := rest })
  /-- A word written to `CMD` while busy. -/
  | overrun {w : Word} {rest : List Input} (hin : s.inputs = .regWrite 0 w :: rest) (hb : s.busy = true) :
      StepEffect s (raise .ovr { s with inputs := rest })
  /-- An illegal word written to `CMD` while idle. -/
  | illegal {w : Word} {rest : List Input} {why : IllegalWord} (hin : s.inputs = .regWrite 0 w :: rest)
      (hb : s.busy = false) (hd : decode w = .illegal why) :
      StepEffect s (raise .ill { s with inputs := rest })
  /-- An operation accepted. -/
  | command {w : Word} {rest : List Input} {i : Instr} (hin : s.inputs = .regWrite 0 w :: rest)
      (hb : s.busy = false) (hd : decode w = .operation i) :
      StepEffect s (accepted { s with inputs := rest } i)

/-- Every step answers a next state, and it is one of the eight. -/
theorem exists_step_effect (s : State) : ∃ t, step s = .next t ∧ StepEffect s t := by
  rcases step_cases s with ⟨hin, -⟩ | ⟨off, rest, hin, h⟩ | ⟨gap, rest, hin, -⟩ | ⟨e, rest, hin, h⟩ |
    ⟨off, w, rest, hin, hoff, h⟩ | ⟨w, rest, hin, hb, h⟩ | ⟨w, rest, why, hin, hb, hd, h⟩ |
    ⟨w, rest, i, hin, hb, hd, h⟩
  · exact ⟨_, step_move (.inl ⟨hin, rfl⟩), .move (.inl ⟨hin, rfl⟩)⟩
  · exact ⟨_, h, .read hin⟩
  · cases hb : s.busy with
    | false => exact ⟨_, step_pass_idle hin hb, .gap hin hb⟩
    | true => exact ⟨_, step_pass_busy hin hb, .move (.inr ⟨hb, gap, hin⟩)⟩
  · exact ⟨_, h, .hwReset hin⟩
  · exact ⟨_, h, .register hin hoff⟩
  · exact ⟨_, h, .overrun hin hb⟩
  · exact ⟨_, h, .illegal hin hb hd⟩
  · exact ⟨_, h, .command hin hb hd⟩

/-- The next state of a step is one of the eight. -/
theorem step_effect {s t : State} (h : step s = .next t) : StepEffect s t := by
  obtain ⟨u, hu, heffect⟩ := exists_step_effect s
  rw [h] at hu
  cases hu
  exact heffect

end Sys2Proof.Machine
end

section
/-! PROOFS. A step always answers, and what it is where no host access is pending (60_exceptions.md, 10_state.md). -/

namespace Sys2Proof.Machine

/-- Settles O34: each of the eight effects is a next state. -/
theorem stepNeverStops : Obligations.StepNeverStops := by
  intro s
  obtain ⟨t, h, -⟩ := exists_step_effect s
  exact ⟨t, h⟩

/-- Settles O31: a pending `pass` is a move of a busy block and a gap of an idle one. -/
theorem passAdvancesOnePrimitive : Obligations.PassAdvancesOnePrimitive :=
  ⟨fun _ hin => step_nil hin, fun _ _ _ hin hb => step_pass_busy hin hb, fun _ _ _ hin hb => step_pass_idle hin hb⟩

end Sys2Proof.Machine
end

section
/-! SUPPORT. The invariant, part by part: the line (pin and trace) against the phase a slot has decided, the sequencer,
and the shift register (rules R36, R37, R132). -/

namespace Sys2Proof.Machine

/-! ## The line -/

/-- The pin and the trace are where `want` says: driven exactly if it is low, and the trace in that phase (rule R132).
It is the part of the invariant that primitives move. -/
def LineAt (want : Option Phase) (s : State) : Prop :=
  s.dir = (want == some .low) ∧ phaseAgrees want (phaseAfter s.trace) = true

theorem phaseAgrees_none_iff {got : Option Phase} :
    phaseAgrees none got = true ↔ ∃ q, got = some q ∧ q ≠ .low := by
  cases got <;> simp [phaseAgrees]

theorem phaseAgrees_some_iff {p : Phase} {got : Option Phase} : phaseAgrees (some p) got = true ↔ got = some p := by
  cases got <;> simp [phaseAgrees]

/-- Where the line is not low, the trace is legal and its phase not low. -/
theorem LineAt.exists_phase {want : Option Phase} {s : State} (h : LineAt want s) (hw : want ≠ some .low) :
    ∃ q, phaseAfter s.trace = some q ∧ q ≠ .low := by
  obtain ⟨-, hphase⟩ := h
  cases want with
  | none => exact phaseAgrees_none_iff.mp hphase
  | some p => exact ⟨p, phaseAgrees_some_iff.mp hphase, fun hp => hw (congrArg some hp)⟩

/-- A line that is not low meets the demand of an idle block and of the start of a slot. -/
theorem LineAt.of_not_low {want : Option Phase} {s : State} (h : LineAt want s) (hw : want ≠ some .low) :
    LineAt none s := by
  refine ⟨?_, phaseAgrees_none_iff.mpr (h.exists_phase hw)⟩
  rw [h.1]
  simpa using hw

/-- `LineAt` sees the pin and the trace only. -/
theorem LineAt.congr {want : Option Phase} {s t : State} (h : LineAt want s) (hdir : t.dir = s.dir)
    (htrace : t.trace = s.trace) : LineAt want t := by
  rwa [LineAt, hdir, htrace]

/-- What a primitive makes of the phase the slot has decided: a drive starts a low, a release ends it, a sample wants
it ended (rule R132). -/
inductive PrimMoves : Prim → Option Phase → Option Phase → Prop
  | driveLow {want : Option Phase} (hw : want ≠ some .low) : PrimMoves .driveLow want (some .low)
  | release : PrimMoves .release (some .low) (some .high)
  | delay (t : Nat) (want : Option Phase) : PrimMoves (.delay t) want want
  | sample : PrimMoves .sample (some .high) (some .high)

/-- A primitive in its place moves the line from phase to phase. -/
theorem LineAt.perform {p : Prim} {want want' : Option Phase} {s : State} (hp : PrimMoves p want want')
    (hpin : s.cfg.pin < s.dirPort.length) (h : LineAt want s) : LineAt want' (perform p s) := by
  cases hp with
  | driveLow hw =>
    obtain ⟨q, hq, hlow⟩ := h.exists_phase hw
    refine ⟨driveLow_dir hpin, phaseAgrees_some_iff.mpr ?_⟩
    simp [Machine.perform, phaseAfter_snoc, hq, phaseStep, hlow]
  | release =>
    obtain ⟨-, hphase⟩ := h
    rw [phaseAgrees_some_iff] at hphase
    refine ⟨release_dir s, phaseAgrees_some_iff.mpr ?_⟩
    simp [Machine.perform, phaseAfter_snoc, hphase, phaseStep]
  | delay t =>
    obtain ⟨hdir, hphase⟩ := h
    exact ⟨hdir, by simpa [Machine.perform] using hphase⟩
  | sample =>
    obtain ⟨hdir, hphase⟩ := h
    rw [phaseAgrees_some_iff] at hphase
    refine ⟨hdir, phaseAgrees_some_iff.mpr ?_⟩
    simp [Machine.perform, phaseAfter_snoc, hphase, phaseStep]

/-! ## The primitive lists -/

/-- A write slot goes low and high again, in WBIT and in each slot of SENDB (rules R127, R151). -/
theorem writeSlot_moves {T : Timing} {b : Bool} {k : Nat} {p : Prim} (hp : (writeSlot T b)[k]? = some p) :
    PrimMoves p (slotPhase .wbit k) (slotPhase .wbit (k + 1)) := by
  rcases k with _ | _ | _ | _ | k
  · cases hp; exact .driveLow (by decide)
  · cases hp; exact .delay _ _
  · cases hp; exact .release
  · cases hp; exact .delay _ _
  · simp [writeSlot] at hp

/-- A read slot goes low and high again and samples while high, in RBIT and in each slot of RECVB (rules R130,
R155). -/
theorem readSlot_moves {T : Timing} {k : Nat} {p : Prim} (hp : (readSlot T)[k]? = some p) :
    PrimMoves p (slotPhase .rbit k) (slotPhase .rbit (k + 1)) := by
  rcases k with _ | _ | _ | _ | _ | _ | k
  · cases hp; exact .driveLow (by decide)
  · cases hp; exact .delay _ _
  · cases hp; exact .release
  · cases hp; exact .delay _ _
  · cases hp; exact .sample
  · cases hp; exact .delay _ _
  · simp [readSlot] at hp

/-- LRESET goes low after its pre-delay, high again, and samples while high (rule R123). -/
theorem lresetPrims_moves {T : Timing} {k : Nat} {p : Prim} (hp : (lresetPrims T)[k]? = some p) :
    PrimMoves p (slotPhase .lreset k) (slotPhase .lreset (k + 1)) := by
  rcases k with _ | _ | _ | _ | _ | _ | _ | k
  · cases hp; exact .delay _ _
  · cases hp; exact .driveLow (by decide)
  · cases hp; exact .delay _ _
  · cases hp; exact .release
  · cases hp; exact .delay _ _
  · cases hp; exact .sample
  · cases hp; exact .delay _ _
  · simp [lresetPrims] at hp

/-- Each primitive of a slot moves the line from the phase at its index to the phase at the next (rule R132). -/
theorem slotPrims_moves {op : LineOp} {arg : Byte} {s : State} {k : Nat} {p : Prim}
    (hp : (slotPrims op arg s)[k]? = some p) : PrimMoves p (slotPhase op k) (slotPhase op (k + 1)) := by
  cases op with
  | lreset => exact lresetPrims_moves hp
  | wbit => exact writeSlot_moves hp
  | rbit => exact readSlot_moves hp
  | sendb => exact writeSlot_moves hp
  | recvb => exact readSlot_moves hp

/-- A slot begins with the line not low, high or untouched (rules R123, R132). -/
@[simp] theorem slotPhase_zero (op : LineOp) : slotPhase op 0 = none := by
  cases op <;> rfl

/-- A slot ends with the line released (rule R132). -/
theorem slotPhase_slotLength (op : LineOp) : slotPhase op (slotLength op) = some .high := by
  cases op <;> rfl

/-- `slotLength` is the length of a slot's list. -/
theorem slotPrims_length_eq (op : LineOp) (arg : Byte) (s : State) :
    (slotPrims op arg s).length = slotLength op := by
  cases op <;> rfl

/-! ## The sequencer and the shift register -/

/-- A running sequencer is legal (rule R36). -/
theorem seqLegal_running_iff {op : LineOp} {arg : Byte} {k b : Nat} :
    seqLegal (.running op arg k b) = true ↔ argLegal op arg = true ∧ k < slotLength op ∧ b < slotCount op := by
  simp [seqLegal, and_assoc]

theorem txshAgrees_running_iff {s : State} {op : LineOp} {arg : Byte} {k b : Nat} (h : s.seq = .running op arg k b) :
    txshAgrees s = true ↔ (op = .sendb → s.txsh = arg >>> b) := by
  cases op <;> simp [txshAgrees, h]

theorem txshAgrees_idle {s : State} (h : s.seq = .idle) : txshAgrees s = true := by
  simp [txshAgrees, h]

theorem slotEnd_eq_frame (op : LineOp) (s : State) :
    slotEnd op s = { s with txsh := (slotEnd op s).txsh, rxacc := (slotEnd op s).rxacc } := by
  cases op <;> rfl

theorem complete_eq_frame (op : LineOp) (s : State) :
    complete op s =
      { s with seq := .idle, presence := (complete op s).presence, rxbit := (complete op s).rxbit,
               rxdata := (complete op s).rxdata } := by
  cases op <;> rfl

/-! ## Moves of the block -/

/-- Where the sequencer is after a move depends on where it was and on nothing else (rule R36). -/
theorem tick_seq {s : State} {op : LineOp} {arg : Byte} {k b : Nat} (h : s.seq = .running op arg k b) :
    (tick s).seq =
      if k + 1 < slotLength op then .running op arg (k + 1) b
      else if b + 1 < slotCount op then .running op arg 0 (b + 1)
      else .idle := by
  rw [tick_running h, slotPrims_length_eq, advance]
  split
  · rfl
  · split
    · rfl
    · rw [complete_eq_frame]

/-- A move shifts `txsh` at the end of a slot only (rules R37, R151). -/
theorem tick_txsh {s : State} {op : LineOp} {arg : Byte} {k b : Nat} (h : s.seq = .running op arg k b) :
    (tick s).txsh = if k + 1 < slotLength op then s.txsh else (slotEnd op s).txsh := by
  have hperform : (performAt (slotPrims op arg s) k s).txsh = s.txsh := by
    rcases performAt_cases (slotPrims op arg s) k s with ⟨p, -, hu⟩ | ⟨-, hu⟩ <;> rw [hu]
    rw [perform_frame]
  rw [tick_running h, slotPrims_length_eq, advance]
  split
  · exact hperform
  · split
    · cases op <;> simp [slotEnd, hperform]
    · rw [complete_eq_frame]
      cases op <;> simp [slotEnd, hperform]

/-- A move touches the pin, the trace and the environment's answers as its primitive does. -/
theorem tick_line {s : State} {op : LineOp} {arg : Byte} {k b : Nat} {p : Prim} (h : s.seq = .running op arg k b)
    (hp : (slotPrims op arg s)[k]? = some p) :
    (tick s).dirPort = (perform p s).dirPort ∧ (tick s).trace = (perform p s).trace ∧
      (tick s).answers = (perform p s).answers ∧ (tick s).draws = (perform p s).draws := by
  rw [tick_frame h, performAt_eq hp]
  exact ⟨rfl, rfl, rfl, rfl⟩

@[simp] theorem perform_cfg (p : Prim) (s : State) : (perform p s).cfg = s.cfg := by rw [perform_frame]

theorem tick_dirPort_length (s : State) : (tick s).dirPort.length = s.dirPort.length := by
  cases hs : s.seq with
  | idle => rw [tick_idle hs]
  | running op arg k b =>
    rw [tick_frame hs]
    rcases performAt_cases (slotPrims op arg s) k s with ⟨p, -, hu⟩ | ⟨-, hu⟩ <;> simp [hu]

/-- A move keeps the sequencer legal (rule R36). -/
theorem tick_keeps_seqLegal {s : State} (h : seqLegal s.seq = true) : seqLegal (tick s).seq = true := by
  cases hs : s.seq with
  | idle => rw [tick_idle hs]; exact h
  | running op arg k b =>
    rw [hs, seqLegal_running_iff] at h
    obtain ⟨harg, -, hb⟩ := h
    rw [tick_seq hs]
    split
    · exact seqLegal_running_iff.mpr ⟨harg, ‹_›, hb⟩
    · split
      · exact seqLegal_running_iff.mpr ⟨harg, by cases op <;> decide, ‹_›⟩
      · rfl

/-- A move keeps the line at the phase of the sequencer (rule R132). -/
theorem tick_keeps_lineAt {s : State} (hpin : s.cfg.pin < s.dirPort.length) (hlegal : seqLegal s.seq = true)
    (hline : LineAt (seqPhase s.seq) s) : LineAt (seqPhase (tick s).seq) (tick s) := by
  cases hs : s.seq with
  | idle => rw [tick_idle hs]; exact hline
  | running op arg k b =>
    rw [hs] at hlegal hline
    obtain ⟨-, hk, -⟩ := seqLegal_running_iff.mp hlegal
    have hp := List.getElem?_eq_getElem (l := slotPrims op arg s) (i := k) (by rwa [slotPrims_length_eq])
    obtain ⟨hport, htrace, -, -⟩ := tick_line hs hp
    have hafter : LineAt (slotPhase op (k + 1)) (tick s) :=
      (hline.perform (slotPrims_moves hp) hpin).congr (by rw [State.dir, hport, tick_cfg, State.dir, perform_cfg])
        htrace
    have hend (hlast : ¬ k + 1 < slotLength op) : LineAt none (tick s) := by
      have hk' : k + 1 = slotLength op := by omega
      rw [hk', slotPhase_slotLength] at hafter
      exact hafter.of_not_low (by decide)
    rw [tick_seq hs]
    split
    · exact hafter
    · split
      · simpa [seqPhase] using hend ‹_›
      · exact hend ‹_›

/-- A move keeps `txsh` the operand shifted by the slots sent (rules R37, R151). -/
theorem tick_keeps_txshAgrees {s : State} (h : txshAgrees s = true) : txshAgrees (tick s) = true := by
  cases hs : s.seq with
  | idle => rw [tick_idle hs]; exact h
  | running op arg k b =>
    rw [txshAgrees_running_iff hs] at h
    have hseq := tick_seq hs
    split at hseq
    · rw [txshAgrees_running_iff hseq, tick_txsh hs, if_pos ‹_›]
      exact h
    · split at hseq
      · rw [txshAgrees_running_iff hseq, tick_txsh hs, if_neg ‹_›]
        rintro rfl
        simp [slotEnd, h rfl, BitVec.shiftRight_add]
      · exact txshAgrees_idle hseq

/-! ## The invariant -/

theorem inv_iff {s : State} :
    s.Inv ↔ s.portsWf ∧ seqLegal s.seq = true ∧ s.drv = false ∧ LineAt (seqPhase s.seq) s ∧ txshAgrees s = true := by
  simp only [State.Inv, LineAt, and_assoc]

/-- The ports stay as wide as the configuration says. -/
theorem State.portsWf.congr {s t : State} (h : s.portsWf) (hcfg : t.cfg = s.cfg)
    (hdir : t.dirPort.length = s.dirPort.length) (hout : t.outPort.length = s.outPort.length) : t.portsWf := by
  obtain ⟨hpin, hd, ho⟩ := h
  exact ⟨hcfg ▸ hpin, by rw [hdir, hd, hcfg], by rw [hout, ho, hcfg]⟩

/-- An idle block that keeps the invariant has a line that is not low. -/
theorem State.Inv.lineAt_none {s : State} (h : s.Inv) (hb : s.busy = false) : LineAt none s := by
  obtain ⟨-, -, -, hline, -⟩ := inv_iff.mp h
  rwa [busy_eq_false_iff.mp hb] at hline

/-- A move of the block keeps the invariant. -/
theorem tick_keeps_inv {s : State} (h : s.Inv) : (tick s).Inv := by
  obtain ⟨hports, hlegal, hdrv, hline, htxsh⟩ := inv_iff.mp h
  have hpin : s.cfg.pin < s.dirPort.length := by
    obtain ⟨hpin, hlength, -⟩ := hports
    rwa [hlength]
  refine inv_iff.mpr ⟨hports.congr (tick_cfg s) (tick_dirPort_length s) (by rw [tick_outPort]),
    tick_keeps_seqLegal hlegal, by rwa [State.drv, tick_outPort, tick_cfg],
    tick_keeps_lineAt hpin hlegal hline, tick_keeps_txshAgrees htxsh⟩

/-- A gap on an idle block keeps the invariant. -/
theorem delay_keeps_inv {s : State} (h : s.Inv) (t : Nat) : (delay t s).Inv := by
  obtain ⟨hports, hlegal, hdrv, ⟨hdir, hphase⟩, htxsh⟩ := inv_iff.mp h
  exact inv_iff.mpr ⟨hports, hlegal, hdrv, ⟨hdir, by simpa using hphase⟩, htxsh⟩

/-- Hardware reset keeps the invariant: where it cuts a low, the release it traces ends the low (rule R271). -/
theorem hardwareReset_keeps_inv {s : State} (h : s.Inv) (e : Nat) : (hardwareReset e s).Inv := by
  obtain ⟨hports, -, -, hline, -⟩ := inv_iff.mp h
  have hphase : ∃ q, phaseAfter (hardwareReset e s).trace = some q ∧ q ≠ .low := by
    rw [hardwareReset_trace, resetEvents, ← List.append_assoc]
    cases hdir : s.dir with
    | true =>
      obtain ⟨hwant, hphase⟩ := hline
      have hlow : seqPhase s.seq = some .low := by simpa [hdir] using hwant
      rw [hlow, phaseAgrees_some_iff] at hphase
      exact ⟨.high, by rw [if_pos rfl, phaseAfter_snoc, phaseAfter_waitEvents, hphase]; rfl, by decide⟩
    | false =>
      have hlow : seqPhase s.seq ≠ some .low := by simpa [hdir] using hline.1
      simpa using hline.exists_phase hlow
  refine inv_iff.mpr ⟨hports.congr rfl (gpioClear_length _ _) (gpioClear_length _ _), rfl, hardwareReset_drv e s,
    ⟨hardwareReset_dir e s, phaseAgrees_none_iff.mpr hphase⟩, rfl⟩

/-- Accepting an operation starts a legal slot with its operand in place, or, for a CRC operation, writes `CRC` only
(rules R98, R151, R171 to R173). -/
theorem accepted_cases (s : State) (i : Instr) :
    (∃ op arg x, argLegal op arg = true ∧ (op = .sendb → x = arg) ∧
      accepted s i = { s with seq := .running op arg 0 0, txsh := x }) ∨
    ∃ c, accepted s i = { s with crc := c } := by
  cases i with
  | lreset => exact .inl ⟨.lreset, noArg, s.txsh, rfl, nofun, rfl⟩
  | wbit b => exact .inl ⟨.wbit, bitArg b, s.txsh, by cases b <;> rfl, nofun, rfl⟩
  | rbit => exact .inl ⟨.rbit, noArg, s.txsh, rfl, nofun, rfl⟩
  | sendb v => exact .inl ⟨.sendb, v, v, rfl, fun _ => rfl, rfl⟩
  | recvb => exact .inl ⟨.recvb, noArg, s.txsh, rfl, nofun, rfl⟩
  | crcclr => exact .inr ⟨_, rfl⟩
  | crcb v => exact .inr ⟨_, rfl⟩
  | crct v => exact .inr ⟨_, rfl⟩

/-- Accepting an operation keeps the invariant: the first slot begins where the idle block left the line. -/
theorem accepted_keeps_inv {s : State} (h : s.Inv) (hb : s.busy = false) (i : Instr) : (accepted s i).Inv := by
  rcases accepted_cases s i with ⟨op, arg, x, harg, hx, heq⟩ | ⟨c, heq⟩ <;> rw [heq]
  · obtain ⟨hports, -, hdrv, -, -⟩ := inv_iff.mp h
    refine inv_iff.mpr ⟨hports, seqLegal_running_iff.mpr ⟨harg, by cases op <;> decide, by cases op <;> decide⟩, hdrv,
      ?_, ?_⟩
    · rw [seqPhase, slotPhase_zero]
      exact h.lineAt_none hb
    · rw [txshAgrees_running_iff rfl]
      intro hop
      simp [hx hop]
  · exact h

/-! ## The launch state -/

/-- The bit of a GPIO entity built bit by bit. -/
theorem getD_map_range (f : Nat → Bool) (n j : Nat) :
    ((List.range n).map f).getD j false = (decide (j < n) && f j) := by
  by_cases h : j < n <;> simp [List.getD, h]

/-- The pin is released and its level 0 in the launch state (rule R45). -/
theorem reset_pin : State.reset.dir = false ∧ State.reset.drv = false := by
  constructor
  · exact (getD_map_range _ _ _).trans (by simp [State.reset])
  · exact (getD_map_range _ _ _).trans (by simp [State.reset])

end Sys2Proof.Machine
end

section
/-! PROOFS. The invariant (10_state.md, 40_line_ops.md). -/

namespace Sys2Proof.Machine

/-- Settles O36: each effect of a step keeps the invariant; the host's accesses touch none of what it sees. -/
theorem stepKeepsInvariant : Obligations.StepKeepsInvariant := by
  intro s t h hstep
  cases step_effect hstep with
  | @move rest hin => exact tick_keeps_inv (s := { s with inputs := rest }) h
  | @gap d rest hin hb => exact delay_keeps_inv (s := { s with inputs := rest }) h d
  | read hin => exact h
  | @hwReset e rest hin => exact hardwareReset_keeps_inv (s := { s with inputs := rest }) h e
  | register hin hoff => rw [regWrite_eq_frame]; exact h
  | overrun hin hb => exact h
  | illegal hin hb hd => exact h
  | @command w rest i hin hb hd => exact accepted_keeps_inv (s := { s with inputs := rest }) h hb i

/-- Settles O35: an untouched trace and a released pin, whatever the platform's constants are. -/
theorem invariantHoldsAtReset : Obligations.InvariantHoldsAtReset := by
  obtain ⟨hdir, hdrv⟩ := reset_pin
  have hpin : Config.build.pin < Config.build.gpioW := by simp [Config.build]; omega
  exact ⟨⟨hpin, by simp [State.reset], by simp [State.reset]⟩, rfl, hdrv, hdir, rfl, rfl⟩

end Sys2Proof.Machine
end

section
/-! SUPPORT. Parts of the state no step looks at. A projection that forgets such a part commutes with every step up to
what it forgets; this is shown once for any projection, from the small actions a step is made of. -/

namespace Sys2Proof.Machine

/-- What `f` makes of a state, seen through `π`, it makes of what `π` shows of the state. -/
def Respects (π : State → State) (f : State → State) : Prop := ∀ s, π (f (π s)) = π (f s)

theorem Respects.comp {π f g : State → State} (hf : Respects π f) (hg : Respects π g) :
    Respects π fun s => f (g s) := by
  intro s
  rw [← hf (g (π s)), hg s, hf (g s)]

/-- `π` keeps all that decides what a step does, and every action of a step respects it. -/
structure Transparent (π : State → State) : Prop where
  idem (s : State) : π (π s) = π s
  seq (s : State) : (π s).seq = s.seq
  inputs (s : State) : (π s).inputs = s.inputs
  slotPrims (op : LineOp) (arg : Byte) (s : State) : slotPrims op arg (π s) = slotPrims op arg s
  withSeq (q : Seq) (s : State) : π { s with seq := q } = { π s with seq := q }
  withInputs (rest : List Input) (s : State) : π { s with inputs := rest } = { π s with inputs := rest }
  perform (p : Prim) : Respects π (perform p)
  slotEnd (op : LineOp) : Respects π (slotEnd op)
  complete (op : LineOp) : Respects π (complete op)
  hostRead (off : Fin 8) : Respects π (hostRead off)
  hardwareReset (e : Nat) : Respects π (hardwareReset e)
  regWrite (off : Fin 8) (w : Word) : Respects π (regWrite off w)
  raise (e : ErrorFlag) : Respects π (raise e)
  accepted (i : Instr) : Respects π fun s => accepted s i

namespace Transparent

variable {π : State → State} (hπ : Transparent π)

include hπ

theorem busy (s : State) : (π s).busy = s.busy := by
  rw [State.busy, hπ.seq]
  rfl

theorem performAt (ps : List Prim) (k : Nat) : Respects π (performAt ps k) := by
  intro s
  rcases hp : ps[k]? with _ | p
  · simp only [Machine.performAt, hp, hπ.idem]
  · rw [performAt_eq hp, performAt_eq hp, hπ.perform p s]

theorem setSeq (q : Seq) : Respects π fun s => { s with seq := q } := by
  intro s
  calc π { π s with seq := q }
    _ = { π (π s) with seq := q } := hπ.withSeq q (π s)
    _ = { π s with seq := q } := by rw [hπ.idem]
    _ = π { s with seq := q } := (hπ.withSeq q s).symm

theorem advance (op : LineOp) (arg : Byte) (k b len : Nat) : Respects π (advance op arg k b len) := by
  unfold Machine.advance
  split
  · exact hπ.setSeq _
  · split
    · exact (hπ.setSeq _).comp (hπ.slotEnd op)
    · exact (hπ.complete op).comp (hπ.slotEnd op)

/-- A move of the block. -/
theorem tick : Respects π Machine.tick := by
  intro s
  cases hs : s.seq with
  | idle => rw [tick_idle hs, tick_idle (by rw [hπ.seq, hs]), hπ.idem]
  | running op arg k b =>
    rw [tick_running hs, tick_running (by rw [hπ.seq, hs]), hπ.slotPrims]
    exact ((hπ.advance op arg k b _).comp (hπ.performAt _ k)) s

/-- A step from what `π` shows of a state. -/
theorem step_of_step {s t : State} (h : step s = .next t) : ∃ u, step (π s) = .next u ∧ π u = π t := by
  have hin := hπ.inputs s
  have hbusy := hπ.busy s
  have hdrop {f : State → State} (hf : Respects π f) (rest : List Input) :
      π (f { π s with inputs := rest }) = π (f { s with inputs := rest }) := by
    rw [← hπ.withInputs, hf]
  cases step_effect h with
  | @move rest hmove =>
    rw [← hin, ← hbusy] at hmove
    exact ⟨_, step_move hmove, hdrop hπ.tick rest⟩
  | gap hs hb => exact ⟨_, step_pass_idle (hin.trans hs) (hbusy.trans hb), hdrop (hπ.perform (.delay _)) _⟩
  | read hs => exact ⟨_, step_regRead (hin.trans hs), hdrop (hπ.hostRead _) _⟩
  | hwReset hs => exact ⟨_, step_hwReset (hin.trans hs), hdrop (hπ.hardwareReset _) _⟩
  | register hs hoff => exact ⟨_, step_register (hin.trans hs) hoff, hdrop (hπ.regWrite _ _) _⟩
  | overrun hs hb => exact ⟨_, step_overrun (hin.trans hs) (hbusy.trans hb), hdrop (hπ.raise .ovr) _⟩
  | illegal hs hb hd => exact ⟨_, step_illegal (hin.trans hs) (hbusy.trans hb) hd, hdrop (hπ.raise .ill) _⟩
  | command hs hb hd => exact ⟨_, step_accepted (hin.trans hs) (hbusy.trans hb) hd, hdrop (hπ.accepted _) _⟩

/-- States that `π` shows alike step to states that `π` shows alike. -/
theorem step {s s' : State} (h : π s = π s') :
    ∃ t t', Machine.step s = .next t ∧ Machine.step s' = .next t' ∧ π t = π t' := by
  obtain ⟨t, ht⟩ := stepNeverStops s
  obtain ⟨t', ht'⟩ := stepNeverStops s'
  obtain ⟨u, hu, hut⟩ := hπ.step_of_step ht
  obtain ⟨u', hu', hut'⟩ := hπ.step_of_step ht'
  obtain rfl : u = u' := by simpa [h, hu'] using hu.symm
  exact ⟨t, t', ht, ht', hut.symm.trans hut'⟩

end Transparent

/-! ## The two projections -/

/-- No step looks at `PRESENCE`, `RXBIT`, `ILL`, `OVR`, `SDM` or the host's reads (rules R31, R158). -/
theorem withoutFlags_transparent : Transparent State.withoutFlags where
  idem _ := rfl
  seq _ := rfl
  inputs _ := rfl
  slotPrims op _ _ := by cases op <;> rfl
  withSeq _ _ := rfl
  withInputs _ _ := rfl
  perform p _ := by cases p <;> rfl
  slotEnd op _ := by cases op <;> rfl
  complete op _ := by cases op <;> rfl
  hostRead _ _ := rfl
  hardwareReset _ _ := rfl
  regWrite off w _ := by unfold Machine.regWrite; cases regAt off <;> rfl
  raise e _ := by cases e <;> rfl
  accepted i _ := by cases i <;> rfl

/-- A trace without its levels has none to lose. -/
@[simp] theorem withoutLevel_comp_withoutLevel : withoutLevel ∘ withoutLevel = withoutLevel := by
  funext e
  cases e <;> rfl

/-- What a reset traces comes from the sequencer's position and the pin, not from the line. -/
@[simp] theorem resetEvents_withoutLine (e : Nat) (s : State) : resetEvents e s.withoutLine = resetEvents e s := by
  have hcut : cutDelay e s.withoutLine = cutDelay e s := by
    cases hs : s.seq with
    | idle => rw [cutDelay_idle e hs, cutDelay_idle e (s := s.withoutLine) hs]
    | running op arg k b =>
      unfold cutDelay
      rw [hs, show s.withoutLine.seq = .running op arg k b from hs]
      cases op <;> rfl
  rw [resetEvents, hcut]
  rfl

/-- No step is decided by the environment's answers or by what came of them (rules R36, R196). -/
theorem withoutLine_transparent : Transparent State.withoutLine where
  idem s := by simp [State.withoutLine]
  seq _ := rfl
  inputs _ := rfl
  slotPrims op _ _ := by cases op <;> rfl
  withSeq _ _ := rfl
  withInputs _ _ := rfl
  perform p _ := by
    cases p with
    | driveLow => simp [State.withoutLine, perform, driveLow]
    | release => simp [State.withoutLine, perform, release]
    | delay t => simp [State.withoutLine, perform, delay]
    | sample => simp [State.withoutLine, perform, sample, withoutLevel]
  slotEnd op _ := by cases op <;> simp [State.withoutLine, slotEnd, sendbSlotEnd, recvbSlotEnd]
  complete op _ := by cases op <;> simp [State.withoutLine, complete]
  hostRead _ _ := by simp [State.withoutLine, hostRead]
  hardwareReset e s := by
    simp only [hardwareReset, resetEvents_withoutLine]
    simp [State.withoutLine]
  regWrite off w _ := by unfold Machine.regWrite; cases regAt off <;> simp [State.withoutLine]
  raise e _ := by cases e <;> simp [State.withoutLine, raise]
  accepted i _ := by cases i <;> simp [State.withoutLine, accepted]

end Sys2Proof.Machine
end

section
/-! PROOFS. What no step depends on (10_state.md, 43_register_ops.md). -/

namespace Sys2Proof.Machine

/-- Settles O44: `withoutFlags` forgets nothing a step looks at. -/
theorem flagsDoNotInfluence : Obligations.FlagsDoNotInfluence :=
  fun _ _ h => withoutFlags_transparent.step h

/-- Settles O45: `withoutLine` forgets nothing a step is decided by. -/
theorem lineDoesNotInfluenceControl : Obligations.LineDoesNotInfluenceControl :=
  fun _ _ h => withoutLine_transparent.step h

end Sys2Proof.Machine
end

section
/-! SUPPORT. What each kind of step does to one field or one group of fields, read off the eight effects of a step. -/

namespace Sys2Proof.Machine

variable {s t : State}

/-! ## The sticky flags and `SDM` (rules R27, R32, R241, R242) -/

/-- `ILL` is set by an illegal word written while idle, and by nothing else. -/
theorem StepEffect.ill_set (h : StepEffect s t) (hs : s.ill = false) (ht : t.ill = true) :
    ∃ w rest why, s.inputs = .regWrite 0 w :: rest ∧ s.busy = false ∧ decode w = .illegal why := by
  cases h with
  | illegal hin hb hd => exact ⟨_, _, _, hin, hb, hd⟩
  | _ => simp [hs] at ht

/-- `OVR` is set by a write to `CMD` while busy, and by nothing else. -/
theorem StepEffect.ovr_set (h : StepEffect s t) (hs : s.ovr = false) (ht : t.ovr = true) :
    ∃ w rest, s.inputs = .regWrite 0 w :: rest ∧ s.busy = true := by
  cases h with
  | overrun hin hb => exact ⟨_, _, hin, hb⟩
  | _ => simp [hs] at ht

/-- `ILL` is cleared by hardware reset or a 1 written to its bit of `STATUS`, and by nothing else. -/
theorem StepEffect.ill_cleared (h : StepEffect s t) (hs : s.ill = true) (ht : t.ill = false) :
    (∃ e rest, s.inputs = .hwReset e :: rest) ∨
      ∃ w rest, s.inputs = .regWrite 1 w :: rest ∧ w.getLsbD 3 = true := by
  cases h with
  | hwReset hin => exact .inl ⟨_, _, hin⟩
  | register hin hoff =>
    obtain ⟨rfl, hbit⟩ := by simpa [hs] using ht
    exact .inr ⟨_, _, hin, hbit⟩
  | _ => simp [hs] at ht

/-- `OVR` is cleared by hardware reset or a 1 written to its bit of `STATUS`, and by nothing else. -/
theorem StepEffect.ovr_cleared (h : StepEffect s t) (hs : s.ovr = true) (ht : t.ovr = false) :
    (∃ e rest, s.inputs = .hwReset e :: rest) ∨
      ∃ w rest, s.inputs = .regWrite 1 w :: rest ∧ w.getLsbD 4 = true := by
  cases h with
  | hwReset hin => exact .inl ⟨_, _, hin⟩
  | register hin hoff =>
    obtain ⟨rfl, hbit⟩ := by simpa [hs] using ht
    exact .inr ⟨_, _, hin, hbit⟩
  | _ => simp [hs] at ht

/-- `SDM` changes by a write to `CTRL` or hardware reset, and by nothing else. -/
theorem StepEffect.sdm_changed (h : StepEffect s t) (hne : t.sdm ≠ s.sdm) :
    (∃ e rest, s.inputs = .hwReset e :: rest) ∨ ∃ w rest, s.inputs = .regWrite 4 w :: rest := by
  cases h with
  | hwReset hin => exact .inl ⟨_, _, hin⟩
  | register hin hoff =>
    obtain ⟨rfl, -⟩ := by simpa using hne
    exact .inr ⟨_, _, hin⟩
  | _ => simp at hne

/-! ## `CRC` (rule R24) -/

/-- An operation that changes `CRC` is a CRC operation. -/
theorem accepted_crc_changed {i : Instr} (hne : (accepted s i).crc ≠ s.crc) :
    i = .crcclr ∨ (∃ v, i = .crcb v) ∨ ∃ v, i = .crct v := by
  cases i with
  | crcclr => exact .inl rfl
  | crcb v => exact .inr (.inl ⟨v, rfl⟩)
  | crct v => exact .inr (.inr ⟨v, rfl⟩)
  | _ => exact absurd rfl hne

/-! ## The configuration and the GPIO entities (rules R10, R15, R40) -/

theorem StepEffect.cfg_eq (h : StepEffect s t) : t.cfg = s.cfg := by
  cases h with
  | register hin hoff => rw [regWrite_eq_frame]
  | _ => simp

/-- A move of the block changes no bit of `DIR` but the pin's. -/
theorem tick_dirPort_other {j : Nat} (hj : j ≠ s.cfg.pin) :
    (tick s).dirPort.getD j false = s.dirPort.getD j false := by
  cases hs : s.seq with
  | idle => rw [tick_idle hs]
  | running op arg k b =>
    rw [tick_frame hs]
    rcases performAt_cases (slotPrims op arg s) k s with ⟨p, -, hu⟩ | ⟨-, hu⟩
    · simpa [hu] using perform_dirPort_other p s hj
    · simp [hu]

/-- A step changes no bit of `DIR` but the pin's. -/
theorem StepEffect.dirPort_other (h : StepEffect s t) {j : Nat} (hj : j ≠ s.cfg.pin) :
    t.dirPort.getD j false = s.dirPort.getD j false := by
  cases h with
  | move hin => exact tick_dirPort_other hj
  | hwReset hin => exact gpioClear_other _ hj
  | register hin hoff => rw [regWrite_eq_frame]
  | _ => simp

/-- A step leaves `OUT` as it is, or clears the pin's bit of it. -/
theorem StepEffect.outPort_cases (h : StepEffect s t) :
    t.outPort = s.outPort ∨ t.outPort = gpioClear s.outPort s.cfg.pin := by
  cases h with
  | hwReset hin => exact .inr rfl
  | register hin hoff => left; rw [regWrite_eq_frame]
  | _ => left; simp

/-! ## The trace (rule R16) -/

/-- A primitive appends to the trace. -/
theorem perform_trace_grows (p : Prim) (s : State) : ∃ evs, (perform p s).trace = s.trace ++ evs := by
  cases p <;> exact ⟨_, rfl⟩

/-- A move of the block appends to the trace. -/
theorem tick_trace_grows (s : State) : ∃ evs, (tick s).trace = s.trace ++ evs := by
  cases hs : s.seq with
  | idle => exact ⟨[], by simp [tick_idle hs]⟩
  | running op arg k b =>
    rw [tick_frame hs]
    rcases performAt_cases (slotPrims op arg s) k s with ⟨p, -, hu⟩ | ⟨-, hu⟩
    · simpa [hu] using perform_trace_grows p s
    · exact ⟨[], by simp [hu]⟩

/-! ## The results (rules R23, R29, R30) -/

/-- A completion writes the result of its own operation only (rules R123, R130, R155). -/
theorem complete_results (op : LineOp) (s : State) :
    ((complete op s).presence ≠ s.presence → op = .lreset) ∧ ((complete op s).rxbit ≠ s.rxbit → op = .rbit) ∧
      ((complete op s).rxdata ≠ s.rxdata → op = .recvb) := by
  cases op <;> simp [complete]

/-- A move that ends a running operation performs the last primitive of its last slot and completes it (rule R36). -/
theorem tick_of_ends {op : LineOp} {arg : Byte} {k b : Nat} (hs : s.seq = .running op arg k b)
    (hb : (tick s).busy = false) :
    slotLength op ≤ k + 1 ∧ slotCount op ≤ b + 1 ∧
      tick s = complete op (slotEnd op (performAt (slotPrims op arg s) k s)) := by
  rw [busy_eq_false_iff, tick_running hs, slotPrims_length_eq] at hb
  rw [tick_running hs, slotPrims_length_eq]
  rcases advance_cases op arg k b (slotLength op) (performAt (slotPrims op arg s) k s) with
    ⟨-, h⟩ | ⟨-, -, h⟩ | ⟨hk, hslot, h⟩
  · simp [h] at hb
  · simp [h] at hb
  · exact ⟨hk, hslot, h⟩

/-- A move that changes a result completes the operation that owns it. -/
theorem tick_results (s : State) :
    ((tick s).presence ≠ s.presence → (tick s).busy = false ∧ ∃ arg k b, s.seq = .running .lreset arg k b) ∧
    ((tick s).rxbit ≠ s.rxbit → (tick s).busy = false ∧ ∃ arg k b, s.seq = .running .rbit arg k b) ∧
    ((tick s).rxdata ≠ s.rxdata → (tick s).busy = false ∧ ∃ arg k b, s.seq = .running .recvb arg k b) := by
  cases hb : (tick s).busy with
  | true =>
    obtain ⟨hp, hr, hd⟩ := tick_results_of_busy hb
    exact ⟨fun h => absurd hp h, fun h => absurd hr h, fun h => absurd hd h⟩
  | false =>
    cases hs : s.seq with
    | idle => simp [tick_idle hs]
    | running op arg k b =>
      obtain ⟨-, -, htick⟩ := tick_of_ends hs hb
      obtain ⟨hp, hr, hd⟩ := performAt_results (slotPrims op arg s) k s
      obtain ⟨hp', hr', hd'⟩ := slotEnd_results op (performAt (slotPrims op arg s) k s)
      obtain ⟨hpres, hrx, hdata⟩ := complete_results op (slotEnd op (performAt (slotPrims op arg s) k s))
      rw [hp', hp] at hpres
      rw [hr', hr] at hrx
      rw [hd', hd] at hdata
      rw [htick]
      exact ⟨fun h => ⟨rfl, arg, k, b, by rw [hpres h]⟩, fun h => ⟨rfl, arg, k, b, by rw [hrx h]⟩,
        fun h => ⟨rfl, arg, k, b, by rw [hdata h]⟩⟩

/-- A step that changes a result is hardware reset or a move of the block. -/
theorem StepEffect.results_cases (h : StepEffect s t) (hreset : ∀ e rest, s.inputs ≠ .hwReset e :: rest) :
    (∃ rest, t = tick { s with inputs := rest }) ∨
      (t.presence = s.presence ∧ t.rxbit = s.rxbit ∧ t.rxdata = s.rxdata) := by
  cases h with
  | move hin => exact .inl ⟨_, rfl⟩
  | hwReset hin => exact absurd hin (hreset _ _)
  | register hin hoff => right; rw [regWrite_eq_frame]; exact ⟨rfl, rfl, rfl⟩
  | _ => right; simp

end Sys2Proof.Machine
end

section
/-! PROOFS. What a step may change, and what changes it (10_state.md, 60_exceptions.md, 43_register_ops.md). -/

namespace Sys2Proof.Machine

/-- Settles O42: flag by flag over the eight effects of a step. -/
theorem onlyTheseEventsMoveStickyFlags : Obligations.OnlyTheseEventsMoveStickyFlags :=
  fun _ _ h =>
    have heffect := step_effect h
    ⟨heffect.ill_set, heffect.ovr_set, heffect.ill_cleared, heffect.ovr_cleared, heffect.sdm_changed⟩

/-- Settles O9: the gate stands before the decoder and before every operation. -/
theorem busyBlockDropsCommand : Obligations.BusyBlockDropsCommand :=
  ⟨fun _ _ _ hb hin => step_overrun hin hb, fun s i hb => by rw [exec_eq_issue, issue_busy hb]; rfl,
    fun _ _ h => (step_effect h).ovr_cleared⟩

/-- Settles O10: the decoder rejects the word of an idle block. -/
theorem illegalCommandSetsIll : Obligations.IllegalCommandSetsIll :=
  ⟨fun _ _ _ _ hb hin hd => step_illegal hin hb hd, fun _ _ h => (step_effect h).ill_cleared⟩

/-- Settles O32: the length of a slot's list and the number of slots are the operation's. -/
theorem sequencerAdvancesInOrder : Obligations.SequencerAdvancesInOrder :=
  fun _ _ _ _ _ h => tick_seq h

/-- Settles O33: a result is written by the completion that owns it, which ends the operation. -/
theorem resultsWrittenOnlyAtCompletion : Obligations.ResultsWrittenOnlyAtCompletion := by
  intro s
  obtain ⟨hp, hr, hd⟩ := tick_results s
  exact ⟨tick_results_of_busy, fun h => (hp h).2, fun h => (hr h).2, fun h => (hd h).2⟩

/-- Settles O37: no effect of a step writes the configuration. -/
theorem configurationNeverChanges : Obligations.ConfigurationNeverChanges :=
  ⟨fun _ _ h => (step_effect h).cfg_eq, fun s => by
    simp only [regRead_config, flagBit_zero_eq_ite, profileBit_eq_true_iff]⟩

/-- Settles O38: the primitives and reset write the pin's own bit, and `OUT` is written by reset only, with 0. -/
theorem otherGpioBitsUntouched : Obligations.OtherGpioBitsUntouched := by
  intro s t h
  have heffect := step_effect h
  have hcfg := heffect.cfg_eq
  rcases heffect.outPort_cases with hout | hout
  · exact ⟨fun j hj => ⟨heffect.dirPort_other hj, by rw [hout]⟩, by simp [State.drv, hout, hcfg]⟩
  · refine ⟨fun j hj => ⟨heffect.dirPort_other hj, by rw [hout, gpioClear_other _ hj]⟩, fun _ => ?_⟩
    rw [State.drv, hout, hcfg, gpioClear_self]

/-- Settles O39: primitives, gaps and reset append, and nothing else writes the trace. -/
theorem traceOnlyGrows : Obligations.TraceOnlyGrows := by
  intro s t h
  cases step_effect h with
  | @move rest hin => exact tick_trace_grows { s with inputs := rest }
  | gap hin hb => exact ⟨_, rfl⟩
  | hwReset hin => exact ⟨_, rfl⟩
  | register hin hoff => exact ⟨[], by rw [regWrite_eq_frame]; simp⟩
  | _ => exact ⟨[], by simp⟩

/-- Settles O40: of the eight effects reset and an accepted CRC operation write `CRC`. -/
theorem onlyCrcOperationsWriteCrc : Obligations.OnlyCrcOperationsWriteCrc := by
  intro s t h hne
  cases step_effect h with
  | hwReset hin => exact .inl ⟨_, _, hin⟩
  | command hin hb hd => exact .inr ⟨_, _, _, hin, hb, hd, accepted_crc_changed hne⟩
  | register hin hoff => rw [regWrite_eq_frame] at hne; exact absurd rfl hne
  | _ => simp at hne

/-- Settles O41: but for reset only a move of the block writes a result, and then it completes the operation. -/
theorem onlyCompletionsWriteResults : Obligations.OnlyCompletionsWriteResults := by
  intro s t h hreset
  rcases (step_effect h).results_cases hreset with ⟨rest, rfl⟩ | ⟨hp, hr, hd⟩
  · exact tick_results { s with inputs := rest }
  · exact ⟨fun hne => absurd hp hne, fun hne => absurd hr hne, fun hne => absurd hd hne⟩

/-- Settles O43: a read only records, a write to `CMD` sets `OVR`, and another write is to a flag or ignored. -/
theorem hostAccessDisturbsNothing : Obligations.HostAccessDisturbsNothing := by
  rintro s a rest hb hin (⟨off, rfl⟩ | ⟨off, w, rfl⟩)
  · exact ⟨_, step_regRead hin, rfl⟩
  · by_cases h0 : off = 0
    · subst h0
      exact ⟨_, step_overrun hin hb, rfl⟩
    · refine ⟨_, step_register hin h0, ?_⟩
      rw [regWrite_eq_frame]

/-- Settles O47: the write reaches `STATUS`, whatever the sequencer is at. -/
theorem statusWriteClearsStickyFlags : Obligations.StatusWriteClearsStickyFlags := by
  intro s w rest hin
  have hclear : regWrite 1 w { s with inputs := rest } = clearErrors w { s with inputs := rest } := rfl
  rw [step_register hin (by decide), hclear, clearErrors]
  cases w.getLsbD 3 <;> cases w.getLsbD 4 <;> simp

/-- Settles O7: the gate of `exec` is the one a write to `CMD` meets, and the placed word is the operation's. -/
theorem stepRunsDecodedCommand : Obligations.StepRunsDecodedCommand := by
  have hrun {s : State} {w : Word} {rest : List Input} {i : Instr} (hin : s.inputs = .regWrite 0 w :: rest)
      (hd : decode w = .operation i) : step s = exec i { s with inputs := rest } := by
    cases hb : s.busy with
    | false => exact step_command hin hb hd
    | true =>
      rw [step_overrun hin hb, exec_eq_issue]
      exact (issue_busy (s := { s with inputs := rest }) hb _).symm
  refine ⟨fun s w rest i hin hd => hrun hin hd, fun s i => hrun (s := s.withFetchWord 16 (encode i).toNat) rfl ?_⟩
  rw [Nat.mod_eq_of_lt (encode i).isLt, BitVec.ofNat_toNat, BitVec.setWidth_eq, decode_encode]

/-- Settles O8: an accepted line operation starts the sequencer, an accepted CRC operation leaves it idle. -/
theorem idleBlockAcceptsCommand : Obligations.IdleBlockAcceptsCommand := by
  intro s hb
  refine ⟨exec_idle hb .lreset, fun b => exec_idle hb (.wbit b), exec_idle hb .rbit, fun v => exec_idle hb (.sendb v),
    exec_idle hb .recvb, fun i => ⟨_, exec_idle hb i, ?_⟩⟩
  have hidle := busy_eq_false_iff.mp hb
  cases i <;> simp [accepted, State.busy, hidle]

end Sys2Proof.Machine
end

section
/-! SUPPORT. The accumulator of RECVB and the step of the CRC, bit by bit (rules R156, R172, R176, R180). -/

namespace Sys2Proof.Machine

/-! ## Shifting bits in (rules R62, R155, R156) -/

/-- One shift drops the byte's first bit and puts the new one last. -/
theorem byteBits_rxShift : ∀ (acc : Byte) (v : Bool), byteBits (rxShift acc v) = (byteBits acc).tail ++ [v] := by
  decide

/-- Shifting bits in pushes the accumulator's own bits out, first one first. -/
theorem byteBits_foldl_rxShift (acc : Byte) (vs : List Bool) :
    byteBits (vs.foldl rxShift acc) = (byteBits acc ++ vs).drop vs.length := by
  induction vs generalizing acc with
  | nil => simp
  | cons v vs ih => rw [List.foldl_cons, ih, byteBits_rxShift]; simp [byteBits, List.range_succ]

@[simp] theorem byteBits_length (v : Byte) : (byteBits v).length = 8 := by simp [byteBits]

/-- Eight bits shifted in are all that is left. -/
theorem byteBits_foldl_rxShift_eight (acc : Byte) {vs : List Bool} (h : vs.length = 8) :
    byteBits (vs.foldl rxShift acc) = vs := by
  rw [byteBits_foldl_rxShift, h, List.drop_left' (byteBits_length acc)]

theorem byteBits_getD (v : Byte) {i : Nat} (hi : i < 8) : (byteBits v).getD i false = v.getLsbD i := by
  simp [byteBits, List.getD, hi]

/-- A byte is its bits. -/
theorem byteBits_injective : Function.Injective byteBits := by
  intro v w h
  refine BitVec.eq_of_getLsbD_eq fun i hi => ?_
  rw [← byteBits_getD v hi, h, byteBits_getD w hi]

/-! ## The CRC step (rules R172, R180) -/

/-- What the bit that leaves the register adds to it: the polynomial, or nothing (rule R172). -/
def crcFeedback (b : Bool) : Byte := if b then crcPoly else 0

theorem crcFeedback_xor (a b : Bool) : crcFeedback (a ^^ b) = crcFeedback a ^^^ crcFeedback b := by
  cases a <;> cases b <;> decide

theorem crcBit_eq (c : Byte) (b : Bool) : crcBit c b = (c >>> 1) ^^^ crcFeedback (c.getLsbD 0 ^^ b) := by
  unfold crcBit crcFeedback
  split
  · rfl
  · exact BitVec.xor_zero.symm

theorem crcShift_eq (c : Byte) : crcShift c = (c >>> 1) ^^^ crcFeedback (c.getLsbD 0) := by
  rw [← Bool.xor_false (c.getLsbD 0), ← crcBit_eq, crcBit, Bool.xor_false, crcShift]

/-- The shift is linear over exclusive-or (rule R180). -/
theorem crcShift_xor (c d : Byte) : crcShift (c ^^^ d) = crcShift c ^^^ crcShift d := by
  simp only [crcShift_eq, BitVec.getLsbD_xor, BitVec.ushiftRight_xor_distrib, crcFeedback_xor]
  ac_rfl

/-- A shift of the sum with a byte folds its bit 0 in as the bit-serial listing does, and shifts the rest of it. -/
theorem crcShift_xor_byte (c d : Byte) : crcShift (c ^^^ d) = crcBit c (d.getLsbD 0) ^^^ (d >>> 1) := by
  rw [crcShift_eq, crcBit_eq, BitVec.getLsbD_xor, BitVec.ushiftRight_xor_distrib]
  ac_rfl

theorem crcShifts_succ_right (n : Nat) (c : Byte) : crcShifts (n + 1) c = crcShift (crcShifts n c) := by
  induction n generalizing c with
  | zero => rfl
  | succ n ih => rw [crcShifts, ih, crcShifts]

/-- Repeated shifts are linear over exclusive-or (rule R180). -/
theorem crcShifts_xor (n : Nat) (c d : Byte) : crcShifts n (c ^^^ d) = crcShifts n c ^^^ crcShifts n d := by
  induction n generalizing c d with
  | zero => rfl
  | succ n ih => rw [crcShifts, crcShift_xor, ih, crcShifts, crcShifts]

/-- The polynomial's top bit tells whether a 1 left the register, so no shift but that of zero gives zero. -/
theorem eq_zero_of_crcShift_eq_zero : ∀ c : Byte, crcShift c = 0 → c = 0 := by
  decide

theorem crcShifts_eq_zero_iff {n : Nat} {c : Byte} : crcShifts n c = 0 ↔ c = 0 := by
  induction n generalizing c with
  | zero => rfl
  | succ n ih =>
    rw [crcShifts, ih]
    refine ⟨eq_zero_of_crcShift_eq_zero c, ?_⟩
    rintro rfl
    rfl

/-- Shifts lose nothing: what two bytes share after them they shared before. -/
theorem crcShifts_injective (n : Nat) : Function.Injective (crcShifts n) := by
  intro c d h
  refine BitVec.xor_eq_zero_iff.mp (crcShifts_eq_zero_iff (n := n).mp ?_)
  rw [crcShifts_xor, h]
  exact BitVec.xor_self

/-- The step is the shift of the sum (rule R172, first listing). -/
theorem crcStep_eq (c v : Byte) : crcStep c v = crcShifts 8 (c ^^^ v) := rfl

/-- The step depends on the sum only (rule R180). -/
theorem crcStep_eq_zero_xor (c v : Byte) : crcStep c v = crcStep 0 (c ^^^ v) := by
  rw [crcStep_eq, crcStep_eq]
  exact congrArg _ BitVec.zero_xor.symm

/-- The bit-serial listing after `n` bits, beside the bits still to fold in, is `n` shifts of the sum (rule R172). -/
theorem foldl_crcBit_xor (c v : Byte) (n : Nat) :
    (List.range n).foldl (fun c i => crcBit c (v.getLsbD i)) c ^^^ (v >>> n) = crcShifts n (c ^^^ v) := by
  induction n with
  | zero => simp [crcShifts]
  | succ n ih =>
    rw [crcShifts_succ_right, ← ih, crcShift_xor_byte, List.range_succ, List.foldl_append]
    simp [BitVec.shiftRight_add]

/-- The two listings of the step agree (rule R172). -/
theorem crcStep_eq_crcSerial (c v : Byte) : crcStep c v = crcSerial c v := by
  have hout : v >>> 8 = 0 := BitVec.ushiftRight_eq_zero le_rfl
  rw [crcStep_eq, ← foldl_crcBit_xor, hout]
  exact BitVec.xor_zero

/-! ## The table (rule R176) -/

/-- The printed table, entry by entry, is eight shifts of the index. -/
theorem crcTable_eq : crcTable = (List.range 256).map fun i => crcShifts 8 (BitVec.ofNat 8 i) := by
  decide +kernel

/-- A read of the table is the step from zero (rule R176). -/
theorem crcLookup_eq (i : Byte) : crcLookup i = crcStep 0 i := by
  rw [crcLookup, crcTable_eq]
  simp [List.getD, i.isLt, crcStep_eq]

theorem crc8_append_singleton (bs : List Byte) (x : Byte) : crc8 (bs ++ [x]) = crcStep (crc8 bs) x := by
  simp [crc8]

end Sys2Proof.Machine
end

section
/-! PROOFS. The order of bits (41_byte_ops.md) and the CRC (42_crc8.md). -/

namespace Sys2Proof.Machine

/-- Settles O16: eight shifts push all eight bits of the old accumulator out. -/
theorem eightShiftsHoldTheByte : Obligations.EightShiftsHoldTheByte := by
  intro acc vs hlen i hi
  rw [← byteBits_getD _ hi, byteBits_foldl_rxShift_eight acc hlen]

/-- Settles O17: the byte assembled has the bits of the byte sent. -/
theorem sendAndReceiveOrderAgree : Obligations.SendAndReceiveOrderAgree :=
  fun acc v => byteBits_injective (byteBits_foldl_rxShift_eight acc (byteBits_length v))

/-- Settles O20: the eight repetitions, written out. -/
theorem crcbResult : Obligations.CrcbResult :=
  fun v _ hb => exec_idle hb (.crcb v)

/-- Settles O21: an idle block accepts CRCT, whose whole effect is one read of the table. -/
theorem crctResult : Obligations.CrctResult :=
  fun v _ hb => exec_idle hb (.crct v)

/-- Settles O22: by induction on the bits folded in. -/
theorem crcListingsAgree : Obligations.CrcListingsAgree :=
  crcStep_eq_crcSerial

/-- Settles O23: every entry of the table is eight shifts of its index. -/
theorem crcTableIsStepFromZero : Obligations.CrcTableIsStepFromZero :=
  ⟨by simp [crcTable_eq], crcLookup_eq⟩

/-- Settles O24: the step depends on `CRC ^ v` only, and the table holds its values. -/
theorem crcFormsAgree : Obligations.CrcFormsAgree := by
  intro v s
  rw [exec_eq_issue, exec_eq_issue, accepted, accepted, crcLookup_eq, ← crcStep_eq_zero_xor]

/-- Settles O25: the table is eight shifts, which are injective on a finite type. -/
theorem crcTableIsPermutation : Obligations.CrcTableIsPermutation := by
  have hinj : Function.Injective crcLookup := by
    intro i j h
    rw [crcLookup_eq, crcLookup_eq] at h
    simpa using crcShifts_injective 8 h
  have : Finite Byte := .of_injective BitVec.toFin fun _ _ => BitVec.toFin_inj.mp
  exact Finite.injective_iff_bijective.mp hinj

/-- Settles O26: eight linear shifts of a sum. -/
theorem crcStepLinear : Obligations.CrcStepLinear := by
  refine ⟨fun c₁ c₂ v₁ v₂ => ?_, rfl, crcStep_eq_zero_xor⟩
  rw [crcStep_eq, crcStep_eq, crcStep_eq, ← crcShifts_xor]
  congr 1
  ac_rfl

/-- Settles O27: eight shifts give zero exactly if the sum they start from is zero. -/
theorem crcZeroResidue : Obligations.CrcZeroResidue := by
  intro bs x
  rw [crc8_append_singleton, crcStep_eq, crcShifts_eq_zero_iff]
  exact BitVec.xor_eq_zero_iff.trans eq_comm

/-- Settles O28: zeros leave zero as it is, and the two other runs are evaluated. -/
theorem crcOfConstantBytes : Obligations.CrcOfConstantBytes := by
  refine ⟨fun n => ?_, by decide +kernel, by decide +kernel⟩
  induction n with
  | zero => rfl
  | succ n ih => rw [List.replicate_succ', crc8_append_singleton, ih]; rfl

end Sys2Proof.Machine
end

section
/-! SUPPORT. An operation as the list of its primitives: the moves of all its slots put on the line what performing that
list does, in a time that is the sum of its delays (rules R36, R151, R155, R290). -/

namespace Sys2Proof.Machine

/-! ## What primitives see and change -/

/-- The part of the state that primitives read and, but for the sample latch, all they write. -/
def lineView (s : State) : BuildConfig × List Bool × List LineEvent × List Bool × Nat :=
  (s.cfg, s.dirPort, s.trace, s.answers, s.draws)

theorem lineView_eq_iff {s t : State} :
    lineView s = lineView t ↔
      s.cfg = t.cfg ∧ s.dirPort = t.dirPort ∧ s.trace = t.trace ∧ s.answers = t.answers ∧ s.draws = t.draws := by
  simp [lineView]

/-- A primitive does the same to the line wherever the line is the same. -/
theorem perform_lineView_congr (p : Prim) {s t : State} (h : lineView s = lineView t) :
    lineView (perform p s) = lineView (perform p t) := by
  obtain ⟨hcfg, hport, htrace, hanswers, hdraws⟩ := lineView_eq_iff.mp h
  have hlevel : s.lineLevel = t.lineLevel := by
    simp only [State.lineLevel, State.dir, State.released, hcfg, hport, htrace, hanswers, hdraws]
  cases p <;> simp [perform, lineView, hcfg, hport, htrace, hanswers, hdraws, hlevel]

/-- So does a list of primitives. -/
theorem performAll_lineView_congr (ps : List Prim) {s t : State} (h : lineView s = lineView t) :
    lineView (performAll ps s) = lineView (performAll ps t) := by
  induction ps generalizing s t with
  | nil => exact h
  | cons p ps ih => exact ih (perform_lineView_congr p h)

theorem performAll_append (ps qs : List Prim) (s : State) :
    performAll (ps ++ qs) s = performAll qs (performAll ps s) := by
  simp [performAll]

@[simp] theorem performAll_cfg (ps : List Prim) (s : State) : (performAll ps s).cfg = s.cfg := by
  rw [performAll_frame]

@[simp] theorem performAll_txsh (ps : List Prim) (s : State) : (performAll ps s).txsh = s.txsh := by
  rw [performAll_frame]

/-- A list of primitives takes the sum of their times. -/
theorem performAll_timeOf (ps : List Prim) (s : State) :
    timeOf (performAll ps s).trace = timeOf s.trace + (ps.map primTime).sum := by
  induction ps generalizing s with
  | nil => rfl
  | cons p ps ih => rw [performAll_cons, ih, perform_timeOf, List.map_cons, List.sum_cons, Nat.add_assoc]

/-! ## Slot by slot -/

/-- What the moves of one whole slot do but for the sequencer (rules R36, R151, R155). -/
def slotDone (op : LineOp) (arg : Byte) (s : State) : State := slotEnd op (performAll (slotPrims op arg s) s)

/-- The moves of one whole slot. -/
theorem ticks_whole_slot (op : LineOp) (arg : Byte) (b : Nat) (s : State) :
    ticks (slotLength op) { s with seq := .running op arg 0 b } =
      if b + 1 < slotCount op then { slotDone op arg s with seq := .running op arg 0 (b + 1) }
      else complete op (slotDone op arg s) := by
  obtain ⟨n, hn⟩ : ∃ n, slotLength op = n + 1 := by cases op <;> exact ⟨_, rfl⟩
  rw [hn, ticks_slot b (by rw [slotPrims_length_eq, hn]), advance, if_neg (lt_irrefl _)]
  rfl

/-- The moves of the first `n` slots, where another follows. -/
theorem ticks_slots (op : LineOp) (arg : Byte) (s : State) {n : Nat} (hn : n < slotCount op) :
    ticks (slotLength op * n) { s with seq := .running op arg 0 0 } =
      { (slotDone op arg)^[n] s with seq := .running op arg 0 n } := by
  induction n with
  | zero => rfl
  | succ n ih =>
    rw [Nat.mul_succ, ticks_add, ih (by omega), ticks_whole_slot, if_pos hn, Function.iterate_succ_apply']

/-- The moves of all slots of an operation complete it (rule R36). -/
theorem ticks_operation (op : LineOp) (arg : Byte) (s : State) :
    ticks (slotLength op * slotCount op) { s with seq := .running op arg 0 0 } =
      complete op ((slotDone op arg)^[slotCount op] s) := by
  obtain ⟨n, hn⟩ : ∃ n, slotCount op = n + 1 := by cases op <;> exact ⟨_, rfl⟩
  rw [hn, Nat.mul_succ, ticks_add, ticks_slots op arg s (by omega), ticks_whole_slot, if_neg (by omega),
    Function.iterate_succ_apply']

/-- `BUSY` is 1 before the last move of an operation (rules R28, R36). -/
theorem ticks_operation_busy (op : LineOp) (arg : Byte) (s : State) {m : Nat} (hm : m < slotLength op * slotCount op) :
    (ticks m { s with seq := .running op arg 0 0 }).busy = true := by
  have hlen : 0 < slotLength op := by cases op <;> decide
  have hslot : m / slotLength op < slotCount op := Nat.div_lt_of_lt_mul hm
  rw [← Nat.div_add_mod m (slotLength op), ticks_add, ticks_slots op arg s hslot, ticks_inside_slot]
  · rfl
  · rw [slotPrims_length_eq]
    exact Nat.mod_lt m hlen

theorem iterate_slotDone_cfg (op : LineOp) (arg : Byte) (s : State) (n : Nat) :
    ((slotDone op arg)^[n] s).cfg = s.cfg := by
  induction n with
  | zero => rfl
  | succ n ih => rw [Function.iterate_succ_apply', slotDone, slotEnd_eq_frame, performAll_cfg, ih]

theorem iterate_slotDone_txsh (arg : Byte) (s : State) (n : Nat) :
    ((slotDone .sendb arg)^[n] s).txsh = s.txsh >>> n := by
  induction n with
  | zero => rfl
  | succ n ih => simp [Function.iterate_succ_apply', slotDone, slotEnd, ih, BitVec.shiftRight_add]

/-- The primitives of slot `n`: SENDB's are those of the operand shifted by the slots before it (rule R151). -/
theorem slotPrims_iterate_slotDone (op : LineOp) (arg : Byte) (s : State) (n : Nat) :
    slotPrims op arg ((slotDone op arg)^[n] s) = slotPrims op arg { s with txsh := s.txsh >>> n } := by
  cases op <;> simp [slotPrims, iterate_slotDone_cfg, iterate_slotDone_txsh]

/-- The primitives of the first `n` slots of an operation. -/
def slotsPrims (op : LineOp) (arg : Byte) (s : State) (n : Nat) : List Prim :=
  (List.range n).flatMap fun i => slotPrims op arg { s with txsh := s.txsh >>> i }

/-- The first `n` slots do to the line what performing their primitives in one list does. -/
theorem lineView_iterate_slotDone (op : LineOp) (arg : Byte) (s : State) (n : Nat) :
    lineView ((slotDone op arg)^[n] s) = lineView (performAll (slotsPrims op arg s n) s) := by
  induction n with
  | zero => rfl
  | succ n ih =>
    rw [slotsPrims, List.range_succ, List.flatMap_append, List.flatMap_singleton, performAll_append,
      Function.iterate_succ_apply', slotDone, slotEnd_eq_frame, slotPrims_iterate_slotDone]
    exact performAll_lineView_congr _ ih

/-! ## Whole operations -/

/-- All primitives of an operation, in order (rules R123, R127, R130, R151, R155, R174). -/
def allPrims (T : Timing) : Instr → List Prim
  | .lreset  => lresetPrims T
  | .wbit b  => writeSlot T b
  | .rbit    => readSlot T
  | .sendb v => (byteBits v).flatMap (writeSlot T)
  | .recvb   => (List.range 8).flatMap fun _ => readSlot T
  | .crcclr  => []
  | .crcb _  => []
  | .crct _  => []

/-- The state in which an operation accepted on an idle block has run to completion. -/
def completed (s : State) (i : Instr) : State := ticks (primCount i) (accepted s i)

/-- What an operation does from its first move to its last, where acceptance has made of `s` the state `u` at the start
of its first slot. -/
theorem operation_runs {op : LineOp} {arg : Byte} {s : State} {i : Instr} (u : State)
    (hacc : accepted s i = { u with seq := .running op arg 0 0 }) (hu : lineView u = lineView s)
    (hcount : primCount i = slotLength op * slotCount op)
    (hprims : slotsPrims op arg u (slotCount op) = allPrims s.cfg.timing i) :
    (∀ m < primCount i, (ticks m (accepted s i)).busy = true) ∧ (completed s i).seq = .idle ∧
      lineView (completed s i) = lineView (performAll (allPrims s.cfg.timing i) s) := by
  rw [completed, hacc, hcount, ticks_operation, complete_eq_frame, ← hprims]
  exact ⟨fun m hm => ticks_operation_busy op arg u hm, rfl,
    (lineView_iterate_slotDone op arg u _).trans (performAll_lineView_congr _ hu)⟩

/-- An operation accepted on an idle block is busy until its last primitive, idle after it, and has performed its
primitives, whatever the line showed (rule R36). -/
theorem accepted_runs {s : State} (hidle : s.seq = .idle) (i : Instr) :
    (∀ m < primCount i, (ticks m (accepted s i)).busy = true) ∧ (completed s i).seq = .idle ∧
      lineView (completed s i) = lineView (performAll (allPrims s.cfg.timing i) s) := by
  cases i with
  | lreset => exact operation_runs s rfl rfl rfl rfl
  | wbit b =>
    refine operation_runs s rfl rfl rfl ?_
    simp [slotsPrims, slotCount, slotPrims, wbitPrims, allPrims]
  | rbit => exact operation_runs s rfl rfl rfl rfl
  | sendb v =>
    refine operation_runs { s with txsh := v } rfl rfl rfl ?_
    simp [slotsPrims, slotCount, byteSlots, slotPrims, sendbSlot, allPrims, byteBits, List.flatMap_map]
  | recvb => exact operation_runs s rfl rfl rfl rfl
  | crcclr => exact ⟨nofun, hidle, rfl⟩
  | crcb v => exact ⟨nofun, hidle, rfl⟩
  | crct v => exact ⟨nofun, hidle, rfl⟩

/-- The time of write slots is counted by the bits that are 1 (rule R290). -/
theorem sum_primTime_writeSlots (T : Timing) (bits : List Bool) :
    ((bits.flatMap (writeSlot T)).map primTime).sum =
      (bits.filter id).length * (T.w1L + T.w1H) +
        (bits.length - (bits.filter id).length) * (T.w0L + T.w0H) := by
  induction bits with
  | nil => simp
  | cons b bits ih =>
    have hle : (bits.filter id).length ≤ bits.length := List.length_filter_le _ _
    rw [List.flatMap_cons, List.map_append, List.sum_append, ih]
    cases b with
    | true => simp [writeSlot, primTime]; ring
    | false => simp [writeSlot, primTime, Nat.succ_sub hle]; ring

/-- Read slots take their time each (rule R290). -/
theorem sum_primTime_readSlots (T : Timing) (n : Nat) :
    (((List.range n).flatMap fun _ => readSlot T).map primTime).sum = n * (T.rL + T.rS + T.rR) := by
  induction n with
  | zero => simp
  | succ n ih =>
    rw [List.range_succ, List.flatMap_append, List.map_append, List.sum_append, ih]
    simp [readSlot, primTime]
    ring

/-- The formula column of rule R290 is the sum of the delays. -/
theorem sum_primTime_allPrims (T : Timing) (i : Instr) : ((allPrims T i).map primTime).sum = duration T i := by
  cases i with
  | lreset => simp [allPrims, lresetPrims, primTime, duration]; omega
  | wbit b => cases b <;> simp [allPrims, writeSlot, primTime, duration]
  | rbit => simp [allPrims, readSlot, primTime, duration]; omega
  | sendb v => rw [allPrims, sum_primTime_writeSlots, byteBits_length]; rfl
  | recvb => exact sum_primTime_readSlots T 8
  | crcclr => rfl
  | crcb v => rfl
  | crct v => rfl

end Sys2Proof.Machine
end

section
/-! SUPPORT. Runs of a listing: the host writes a command and lets the operation run to completion, one line after the
other (rules R73, R98, R101). -/

namespace Sys2Proof.Machine

/-- A move of the block does not look at the pending moves of the world. -/
theorem tick_withInputs (s : State) (rest : List Input) :
    tick { s with inputs := rest } = { tick s with inputs := rest } := by
  have hperform (ps : List Prim) (k : Nat) :
      performAt ps k { s with inputs := rest } = { performAt ps k s with inputs := rest } := by
    rcases hp : ps[k]? with _ | p
    · simp only [performAt, hp]
    · rw [performAt_eq hp, performAt_eq hp]
      cases p <;> rfl
  obtain ⟨q, hs⟩ : ∃ q, s.seq = q := ⟨_, rfl⟩
  have hs' : ({ s with inputs := rest } : State).seq = q := hs
  cases q with
  | idle => rw [tick_idle hs, tick_idle hs']
  | running op arg k b =>
    have hprims : slotPrims op arg { s with inputs := rest } = slotPrims op arg s := by cases op <;> rfl
    rw [tick_running hs, tick_running hs', hprims, hperform]
    unfold advance
    split
    · rfl
    · split <;> cases op <;> rfl

/-- A `pass` on a busy block is a move of the block, the other pending moves as they were. -/
theorem step_pass_withInputs {s : State} (hb : s.busy = true) (gap : Nat) (rest : List Input) :
    step { s with inputs := .pass gap :: rest } = .next { tick s with inputs := rest } :=
  (step_pass_busy (s := { s with inputs := .pass gap :: rest }) rfl hb).trans (congrArg _ (tick_withInputs s rest))

/-- While the block is busy, the host's waiting is moves of the block. -/
theorem run_passes {s : State} {n : Nat} (hbusy : ∀ m < n, (ticks m s).busy = true) (rest : List Input) :
    Host.Core.run Sys2Proof.core n { s with inputs := List.replicate n (.pass 0) ++ rest } =
      .next { ticks n s with inputs := rest } := by
  induction n generalizing s with
  | zero => rfl
  | succ n ih =>
    have hstep := step_pass_withInputs (hbusy 0 n.succ_pos) 0 (List.replicate n (.pass 0) ++ rest)
    exact (run_succ hstep n).trans (ih fun m hm => hbusy (m + 1) (by omega))

/-- One line of a listing on an idle block runs its operation to completion (rule R101). -/
theorem run_issueInputs {s : State} (hidle : s.seq = .idle) (i : Instr) (rest : List Input) :
    Host.Core.run Sys2Proof.core (primCount i + 1) { s with inputs := issueInputs i ++ rest } =
      .next { completed s i with inputs := rest } := by
  obtain ⟨hbusy, -, -⟩ := accepted_runs hidle i
  have hdrop (r : List Input) : accepted { s with inputs := r } i = { accepted s i with inputs := r } := by
    cases i <;> rfl
  have hstep := step_accepted (s := { s with inputs := issueInputs i ++ rest }) rfl (busy_eq_false_iff.mpr hidle)
    (decode_encode i)
  rw [hdrop] at hstep
  exact (run_succ hstep (primCount i)).trans (run_passes hbusy rest)

/-- How many steps the lines of a listing take: the write and the moves of each. -/
def listingSteps (is : List Instr) : Nat := (is.map fun i => primCount i + 1).sum

/-- A listing on an idle block runs its operations to completion, one after the other (rule R101). -/
theorem run_listingInputs {s : State} (hidle : s.seq = .idle) (is : List Instr) :
    Host.Core.run Sys2Proof.core (listingSteps is) { s with inputs := listingInputs is } =
      .next { is.foldl completed s with inputs := [] } := by
  induction is generalizing s with
  | nil => rfl
  | cons i is ih =>
    obtain ⟨-, hdone, -⟩ := accepted_runs hidle i
    rw [listingSteps, List.map_cons, List.sum_cons, listingInputs, List.flatMap_cons,
      run_add (run_issueInputs hidle i _), List.foldl_cons]
    exact ih hdone

/-- A listing leaves the block idle, and on the line what performing all its primitives leaves. -/
theorem foldl_completed {s : State} (hidle : s.seq = .idle) (is : List Instr) :
    (is.foldl completed s).seq = .idle ∧
      lineView (is.foldl completed s) = lineView (performAll (is.flatMap (allPrims s.cfg.timing)) s) := by
  induction is generalizing s with
  | nil => exact ⟨hidle, rfl⟩
  | cons i is ih =>
    obtain ⟨-, hdone, hline⟩ := accepted_runs hidle i
    obtain ⟨hseq, hrest⟩ := ih hdone
    have hcfg : (completed s i).cfg = s.cfg := by
      rw [(lineView_eq_iff.mp hline).1, performAll_cfg]
    rw [hcfg] at hrest
    rw [List.foldl_cons, List.flatMap_cons, performAll_append]
    exact ⟨hseq, hrest.trans (performAll_lineView_congr _ hline)⟩

/-- Two listings of the same primitives run to idle blocks with the same trace and the same answers used. -/
theorem run_listings_agree {s : State} (hidle : s.seq = .idle) {is js : List Instr}
    (h : is.flatMap (allPrims s.cfg.timing) = js.flatMap (allPrims s.cfg.timing)) :
    ∃ t u : State,
      Host.Core.run Sys2Proof.core (listingSteps is) { s with inputs := listingInputs is } = .next t ∧
      Host.Core.run Sys2Proof.core (listingSteps js) { s with inputs := listingInputs js } = .next u ∧
      t.trace = u.trace ∧ t.seq = .idle ∧ u.seq = .idle ∧ t.inputs = [] ∧ u.inputs = [] ∧ t.answers = u.answers := by
  obtain ⟨hseq, hline⟩ := foldl_completed hidle is
  obtain ⟨hseq', hline'⟩ := foldl_completed hidle js
  rw [← h] at hline'
  obtain ⟨-, -, htrace, hanswers, -⟩ := lineView_eq_iff.mp (hline.trans hline'.symm)
  exact ⟨_, _, run_listingInputs hidle is, run_listingInputs hidle js, htrace, hseq, hseq', rfl, rfl, hanswers⟩

/-- Feeding bytes to `CRC` folds them in (rules R172, R177). -/
theorem foldl_completed_crcb (bs : List Byte) (s : State) :
    (bs.map Instr.crcb).foldl completed s = { s with crc := bs.foldl crcStep s.crc } := by
  induction bs generalizing s with
  | nil => rfl
  | cons b bs ih => exact ih { s with crc := crcStep s.crc b }

/-! ## Hardware reset (rules R45, R271) -/

/-- `STATUS` reads zero after a reset (rules R27, R45). -/
theorem hardwareReset_statusWord (e : Nat) (s : State) : (hardwareReset e s).statusWord = 0 := by
  simp [State.statusWord, State.busy, flagBit]

/-- LRESET inside its low: its pre-delay has passed and the pin is driven (rule R123). -/
def lresetLow (s : State) : State :=
  { driveLow (delay s.cfg.timing.rstPre s) with seq := .running .lreset noArg 2 0 }

theorem ticks_two_lreset (s : State) : ticks 2 (accepted s .lreset) = lresetLow s :=
  ticks_inside_slot (s := s) (op := .lreset) (arg := noArg) (k := 2) 0 (by rw [slotPrims_length_eq]; decide)

/-- The host's moves that bring LRESET into its low and reset it there. -/
theorem run_lreset_cut {s : State} (hb : s.busy = false) (e : Nat) :
    Host.Core.run Sys2Proof.core 4 { s with inputs := [.regWrite 0 0x0100, .pass 0, .pass 0, .hwReset e] } =
      .next (hardwareReset e { lresetLow s with inputs := [] }) := by
  obtain ⟨hbusy, -, -⟩ := accepted_runs (busy_eq_false_iff.mp hb) .lreset
  have hissue := step_accepted (s := { s with inputs := [.regWrite 0 0x0100, .pass 0, .pass 0, .hwReset e] }) rfl hb
    (decode_encode .lreset)
  have hmoves := run_passes (s := accepted s .lreset) (n := 2) (fun m hm => hbusy m (hm.trans (by decide))) [.hwReset e]
  have hreset := step_hwReset (s := { lresetLow s with inputs := [.hwReset e] }) rfl
  rw [ticks_two_lreset] at hmoves
  exact (run_succ hissue 3).trans ((run_add hmoves 1).trans (run_succ hreset 0))

/-- Reset `e` nanoseconds into the low of LRESET traces the low as long as the time that passed (rule R271). -/
theorem resetEvents_lresetLow {s : State} (hpin : s.cfg.pin < s.dirPort.length) {e : Nat}
    (he : e ≤ s.cfg.timing.rstL) : resetEvents e { lresetLow s with inputs := [] } = waitEvents e ++ [.release] := by
  have hcut : cutDelay e { lresetLow s with inputs := [] } = e :=
    (cutDelay_delay (t := s.cfg.timing.rstL) e rfl rfl).trans (min_eq_left he)
  have hdir : ({ lresetLow s with inputs := [] } : State).dir = true :=
    driveLow_dir (s := delay s.cfg.timing.rstPre s) hpin
  rw [resetEvents, hcut, hdir, if_pos rfl]

end Sys2Proof.Machine
end

section
/-! PROOFS. Operations and listings from issue to completion (10_state.md, 41_byte_ops.md, 42_crc8.md). -/

namespace Sys2Proof.Machine

/-- Settles O30: the moves perform the operation's primitives, whose delays add up to the formula. -/
theorem operationTerminates : Obligations.OperationTerminates := by
  intro i s hb
  obtain ⟨hbusy, hseq, hline⟩ := accepted_runs (busy_eq_false_iff.mp hb) i
  refine ⟨_, exec_idle hb i, hbusy, busy_eq_false_iff.mpr hseq, ?_⟩
  obtain ⟨-, -, htrace, -, -⟩ := lineView_eq_iff.mp hline
  change timeOf (completed s i).trace = _
  rw [htrace, performAll_timeOf, sum_primTime_allPrims]

/-- Settles O18: a byte operation and its eight bit operations have the same primitives in the same order. -/
theorem byteOperationIsEightBitOperations : Obligations.ByteOperationIsEightBitOperations := by
  refine ⟨fun v s _ hb => ?_, fun s _ hb => ?_⟩
  · have hprims (T : Timing) :
        [Instr.sendb v].flatMap (allPrims T) = ((byteBits v).map .wbit).flatMap (allPrims T) := by
      simp [allPrims, List.flatMap_map]
    obtain ⟨t, u, ht, hu, htrace, hseq, hseq', hin, hin', -⟩ :=
      run_listings_agree (busy_eq_false_iff.mp hb) (hprims s.cfg.timing)
    rw [listingInputs, List.flatMap_singleton] at ht
    exact ⟨t, u, ht, hu, htrace, hseq, hseq', hin, hin'⟩
  · have hprims (T : Timing) :
        [Instr.recvb].flatMap (allPrims T) = (List.replicate 8 Instr.rbit).flatMap (allPrims T) := rfl
    obtain ⟨t, u, ht, hu, h⟩ := run_listings_agree (busy_eq_false_iff.mp hb) (hprims s.cfg.timing)
    rw [listingInputs, List.flatMap_singleton] at ht
    exact ⟨t, u, ht, hu, h⟩

/-- Settles O29: a listing of CRC operations takes one step a line, and its bytes are folded in from zero. -/
theorem crcRunComputesCrc8 : Obligations.CrcRunComputesCrc8 := by
  intro bs s hb
  have hsteps : listingSteps (crcRun bs) = bs.length + 1 := by
    simp [listingSteps, crcRun, primCount, Function.comp_def, Nat.add_comm]
  rw [← hsteps, run_listingInputs (busy_eq_false_iff.mp hb), crcRun, List.foldl_cons, foldl_completed_crcb]
  rfl

/-- Settles O51: the events are the cut part of the delay and the release; and of the effects of a step on a busy block
only the last move of its operation and reset leave it idle. -/
theorem hardwareResetAtAnyTime : Obligations.HardwareResetAtAnyTime := by
  refine ⟨fun s e rest hin => ?_, fun s t op arg k b hs h hb => ?_⟩
  · refine ⟨_, cutDelay e { s with inputs := rest }, step_hwReset hin, rfl, hardwareReset_statusWord e _, rfl, rfl, rfl,
      hardwareReset_dir e _, hardwareReset_drv e _, fun j hj => ⟨gpioClear_other _ hj, gpioClear_other _ hj⟩,
      (List.append_assoc _ _ _).symm, fun hb => cutDelay_idle e (busy_eq_false_iff.mp hb),
      fun op arg k b hs => ⟨fun d hd => ?_, fun hd => ?_⟩, rfl, rfl, rfl, rfl, rfl⟩
    · exact cutDelay_delay (s := { s with inputs := rest }) e hs hd
    · exact cutDelay_no_delay (s := { s with inputs := rest }) e hs hd
  · have hbusy : s.busy ≠ false := by simp [State.busy, hs]
    cases step_effect h with
    | @move rest hin =>
      obtain ⟨hk, hslot, -⟩ := tick_of_ends (s := { s with inputs := rest }) hs hb
      exact .inr ⟨hk, hslot⟩
    | hwReset hin => exact .inl ⟨_, _, hin⟩
    | register hin hoff => rw [regWrite_eq_frame] at hb; exact absurd hb hbusy
    | read hin => exact absurd hb hbusy
    | overrun hin => exact absurd hb hbusy
    | gap hin hidle => exact absurd hidle hbusy
    | illegal hin hidle => exact absurd hidle hbusy
    | command hin hidle => exact absurd hidle hbusy

/-- Settles O52: two moves bring LRESET into its low, and the reset cuts the delay that follows. -/
theorem resetShortensTheLowPulse : Obligations.ResetShortensTheLowPulse := by
  intro s e hinv hb he
  have hpin : s.cfg.pin < s.dirPort.length := by
    obtain ⟨⟨hpin, hlength, -⟩, -⟩ := inv_iff.mp hinv
    rwa [hlength]
  have htrace : (hardwareReset e { lresetLow s with inputs := [] }).trace =
      s.trace ++ waitEvents s.cfg.timing.rstPre ++ [.driveLow] ++ waitEvents e ++ [.release] := by
    rw [hardwareReset_trace, resetEvents_lresetLow hpin he]
    simp [lresetLow]
  refine ⟨_, run_lreset_cut hb e, htrace, ?_, rfl, hardwareReset_dir e _, rfl⟩
  simp only [htrace, timeOf_append, timeOf_waitEvents, timeOf_driveLow, timeOf_release, Nat.add_zero]

end Sys2Proof.Machine
end

section
/-! PROOFS. The launch state, the primitives and the platform (00_scope.md, 10_state.md, 20_memory.md,
60_exceptions.md). -/

namespace Sys2Proof.Machine

/-- Settles O50: every field of the launch state is the constant the spec gives, and the two bits of the pin are 0. -/
theorem launchState : Obligations.LaunchState := by
  obtain ⟨hdir, hdrv⟩ := reset_pin
  refine ⟨rfl, rfl, rfl, rfl, rfl, rfl, rfl, rfl, hdir, hdrv, rfl, rfl, fun off hoff => ?_, ?_⟩
  · fin_cases off
    pick_goal 6
    · exact absurd rfl hoff
    all_goals rfl
  · simp only [regRead_config, flagBit_zero_eq_ite, profileBit_eq_true_iff]
    rfl

/-- Settles O53: the level is the environment's unless the pin is driven. -/
theorem sampleSeesTheLine : Obligations.SampleSeesTheLine := by
  intro s
  have hlevel : s.lineLevel = if s.dir = true then false else s.levelAfter s.trace := by
    cases hdir : s.dir with
    | true => exact lineLevel_driven hdir
    | false => exact lineLevel_released hdir
  simp only [perform, sample, hlevel]

/-- Settles O54: the GPIO capability moves the bit of the pin, and there is such a bit. -/
theorem driveAndReleaseMoveOneBit : Obligations.DriveAndReleaseMoveOneBit := by
  intro s hports
  obtain ⟨hpin, hlength, -⟩ := hports
  exact ⟨driveLow_dir (hlength ▸ hpin), release_dir s,
    fun j hj => ⟨perform_dirPort_other .driveLow s hj, perform_dirPort_other .release s hj⟩, rfl, rfl⟩

/-- Settles O55: the cells as the table prints them, and the two lows of each profile compared. -/
theorem timingTableValues : Obligations.TimingTableValues :=
  ⟨rfl, rfl, rfl, rfl, rfl, rfl, rfl, rfl, rfl, fun p => by cases p <;> decide⟩

/-- Settles O56: halving the distance from `BASE` undoes doubling the offset. -/
theorem onlyRegisterAddressesReachRegisters : Obligations.OnlyRegisterAddressesReachRegisters := by
  intro c a off
  unfold offsetOfAddress
  split
  case isTrue haligned =>
    split
    case isTrue hrange =>
      simp only [Option.some.injEq, Fin.ext_iff]
      omega
    case isFalse hrange =>
      simp only [reduceCtorEq, false_iff]
      omega
  case isFalse haligned =>
    simp only [reduceCtorEq, false_iff]
    omega

/-- Settles O57: the quotient of a number rounded up to the next multiple. -/
theorem clockPeriodsRoundUp : Obligations.ClockPeriodsRoundUp := by
  intro c t
  unfold clockPeriods
  generalize t * c.fClkHz = cycles
  omega

end Sys2Proof.Machine
end

section
/-! SUPPORT. The host software's ROM positions and search (45_host_sequences.md), outside the block. -/

namespace Sys2Proof.Machine

/-- Replacing bit `i` of a byte changes that bit only. -/
theorem setByteBit_getLsbD (v : Byte) (i : Nat) {j : Nat} (hj : j < 8) (b : Bool) :
    (setByteBit v i b).getLsbD j = if j = i then b else v.getLsbD j := by
  by_cases h : j = i
  · subst h
    cases b <;> simp [setByteBit, hj]
  · cases b <;> simp [setByteBit, hj, h]

/-- Storing a bit replaces one byte of the code only. -/
theorem setRomBit_getD {code : List Byte} {p : Nat} (hp : (p - 1) / 8 < code.length) (d : Bool) (n : Nat) :
    (setRomBit code p d).getD n 0 =
      if n = (p - 1) / 8 then setByteBit (code.getD n 0) ((p - 1) % 8) d else code.getD n 0 := by
  by_cases h : n = (p - 1) / 8
  · subst h
    simp [setRomBit, hp]
  · simp [setRomBit, List.getElem?_set_ne (Ne.symm h), h]

/-- Positions are told apart by their byte and their bit in it (rule R206). -/
theorem rom_position_eq_iff {p q : Nat} (hp : 1 ≤ p) (hq : 1 ≤ q) :
    q = p ↔ (q - 1) / 8 = (p - 1) / 8 ∧ (q - 1) % 8 = (p - 1) % 8 := by
  omega

/-- Everything a search can report: found, with a valid code, or not found, with its state cleared (rules R204,
R207). -/
theorem search_cases (present : Bool) (respond : List Bool → Bool × Bool) (s : Session) :
    (∃ t : Session, search present respond s = (t, true) ∧ romValid t.romCode = true) ∨
      ∃ t : Session, search present respond s = (resetSearch t, false) := by
  unfold search
  split
  · exact .inr ⟨_, rfl⟩
  · split
    · exact .inr ⟨_, rfl⟩
    · split
      · exact .inl ⟨_, rfl, ‹_›⟩
      · exact .inr ⟨_, rfl⟩

end Sys2Proof.Machine
end

section
/-! PROOFS. The host software (45_host_sequences.md), outside the block. -/

namespace Sys2Proof.Machine

/-- Settles O58: the store goes to one bit of one byte. -/
theorem romBitStoreChangesOnePosition : Obligations.RomBitStoreChangesOnePosition := by
  intro code p q d hlen hp hp' hq hq'
  have hbyte : (p - 1) / 8 < code.length := by omega
  have hbit : (q - 1) % 8 < 8 := Nat.mod_lt _ (by decide)
  simp only [rom_position_eq_iff hp hq, romBit, setRomBit_getD hbyte]
  by_cases h : (q - 1) / 8 = (p - 1) / 8
  · simp only [h, if_true, true_and, setByteBit_getLsbD _ _ hbit]
  · simp only [h, if_false, false_and]

/-- Settles O59: a code found is valid, which is the claim, and any other end of a search clears its state. -/
theorem searchFindsOnlyValidCodes : Obligations.SearchFindsOnlyValidCodes := by
  intro present respond s
  rcases search_cases present respond s with ⟨t, h, hvalid⟩ | ⟨t, h⟩ <;> rw [h]
  · obtain ⟨hlen, hcrc⟩ : t.romCode.length = 8 ∧ crc8 t.romCode = 0 := by simpa [romValid] using hvalid
    exact ⟨fun _ => ⟨hcrc, hlen⟩, nofun⟩
  · exact ⟨nofun, fun _ => ⟨rfl, rfl, rfl⟩⟩

end Sys2Proof.Machine
end
